-- ==== Sys2Proof/Word.lean ====
section
/-! DEFINITION. The word types of the core: bytes, 16-bit words and 16-bit addresses (spec 00_scope.md R7). -/

namespace Sys2Proof

/-- A general register, a memory cell or an instruction byte (R7, R21, R50). -/
abbrev Byte := BitVec 8

/-- A 16-bit quantity: a register pair, pc, sp or MAR (R7). -/
abbrev Word := BitVec 16

/-- A memory address; its 65536 values are the whole address space (R7, R50, R51). -/
abbrev Addr := BitVec 16

end Sys2Proof
end

