-- ==== Sys2Proof/Syntax.lean ====
section
/-! DEFINITION. The instructions as syntax: one constructor for each of the 28 instructions of spec 30_encoding.md R80, and
one for the unrecognized opcodes of R81. -/

namespace Sys2Proof

/-- The four general registers (10_state.md R21). -/
inductive Reg where
  | r0 | r1 | r2 | r3
deriving DecidableEq, Repr

/-- The two register pairs, P0 = R0:R1 and P1 = R2:R3 (10_state.md R25). -/
inductive Pair where
  | p0 | p1
deriving DecidableEq, Repr

/-- The number of a register, 0 to 3 (10_state.md R21). -/
def Reg.index : Reg → Nat
  | .r0 => 0
  | .r1 => 1
  | .r2 => 2
  | .r3 => 3

/-- The number of a pair, 0 or 1 (10_state.md R27). -/
def Pair.index : Pair → Nat
  | .p0 => 0
  | .p1 => 1

/-- An instruction with its operands. `offset14` is R77's field, `target15` R78's, `imm8` R75's, `imm16` R76's.
The opcode table's eight rows UNRECOGNIZED are one behaviour (R102), so they are one constructor that carries the opcode
byte the diagnostic reports. -/
inductive Instr where
  | nop
  | hlt
  | ldi (d : Reg) (imm8 : Byte)
  | ld (d : Reg) (offset14 : BitVec 14)
  | st (src : Reg) (offset14 : BitVec 14)
  | mov (d src : Reg)
  | add (d a b : Reg)
  | adc (d a b : Reg)
  | and (d a b : Reg)
  | jmp (target15 : BitVec 15)
  | out (r : Reg)
  | cpi (r : Reg) (imm8 : Byte)
  | beq (target15 : BitVec 15)
  | bgt (target15 : BitVec 15)
  | ldir (d a : Reg)
  | stir (src a : Reg)
  | ldirp (d : Reg) (p : Pair)
  | stirp (src : Reg) (p : Pair)
  | addiw (p : Pair) (imm16 : Word)
  | addi (d : Reg) (imm8 : Byte)
  | outp (p : Pair)
  | outa (r : Reg)
  | or (d a b : Reg)
  | not (d src : Reg)
  | xor (d a b : Reg)
  | blt (target15 : BitVec 15)
  | call (target15 : BitVec 15)
  | ret
  | unrecognized (op : Byte)
deriving DecidableEq, Repr

end Sys2Proof
end

