-- ==== Sys2Proof/WellFormed.lean ====
section
/-! DEFINITION. Which terms of `Instr` an encoding can produce. The operand types admit exactly the fields of
30_encoding.md R72, so one check is left: `unrecognized` may not carry the opcode of an instruction (R81). -/

namespace Sys2Proof

/-- The opcode values of 30_encoding.md R80: 0x00 to 0x19, 0x20 and 0x21 (R2). -/
def recognizedOpcode (op : Byte) : Bool :=
  decide (op.toNat ≤ 0x19) || op == 0x20#8 || op == 0x21#8

/-- The check on one instruction (30_encoding.md R81). -/
def Instr.wf : Instr → Bool
  | .nop => true
  | .hlt => true
  | .ldi _ _ => true
  | .ld _ _ => true
  | .st _ _ => true
  | .mov _ _ => true
  | .add _ _ _ => true
  | .adc _ _ _ => true
  | .and _ _ _ => true
  | .jmp _ => true
  | .out _ => true
  | .cpi _ _ => true
  | .beq _ => true
  | .bgt _ => true
  | .ldir _ _ => true
  | .stir _ _ => true
  | .ldirp _ _ => true
  | .stirp _ _ => true
  | .addiw _ _ => true
  | .addi _ _ => true
  | .outp _ => true
  | .outa _ => true
  | .or _ _ _ => true
  | .not _ _ => true
  | .xor _ _ _ => true
  | .blt _ => true
  | .call _ => true
  | .ret => true
  | .unrecognized op => !recognizedOpcode op

/-- The instruction is one that some byte sequence encodes. -/
abbrev WellFormed (i : Instr) : Prop := i.wf = true

end Sys2Proof
end

