-- ==== Sys2Proof/Decode.lean ====
section
/-! DEFINITION. From bytes to instructions and back (30_encoding.md R70 to R82, R87), the byte-order helpers they use, and
the opcode table's numbering of instruction words. -/

namespace Sys2Proof

/-! ### Byte order (20_memory.md R56, R57): the high byte comes first -/

/-- `hi : lo` of R9. -/
def joinBytes (hi lo : Byte) : Word := hi ++ lo

/-- Bits 15:8. -/
def hiByte (w : Word) : Byte := w.extractLsb' 8 8

/-- Bits 7:0. -/
def loByte (w : Word) : Byte := w.extractLsb' 0 8

/-! ### Fields (30_encoding.md R72 to R78) -/

/-- The register a 2-bit index names (10_state.md R22). -/
def Reg.ofBits (v : BitVec 2) : Reg :=
  match v.toNat with
  | 0 => .r0
  | 1 => .r1
  | 2 => .r2
  | _ => .r3

/-- The 2-bit index of a register. -/
def Reg.toBits (r : Reg) : BitVec 2 := BitVec.ofNat 2 r.index

/-- The pair a 1-bit field names (R74). -/
def Pair.ofBit (b : Bool) : Pair := if b then .p1 else .p0

/-- The 1-bit field of a pair (R74). -/
def Pair.toBits (p : Pair) : BitVec 1 := BitVec.ofNat 1 p.index

/-- The register field that starts at bit `lo` of an operand byte (R73). -/
def regField (b : Byte) (lo : Nat) : Reg := Reg.ofBits (b.extractLsb' lo 2)

/-- The pair field, always bit 0 of the first operand byte (R74; 10_state.md R27). -/
def pairField (b : Byte) : Pair := Pair.ofBit (b.getLsbD 0)

/-- offset14 = B1[5:0] : B2 (R77). -/
def offsetField (b1 b2 : Byte) : BitVec 14 := b1.extractLsb' 0 6 ++ b2

/-- target15 = B1[6:0] : B2 (R78). -/
def targetField (b1 b2 : Byte) : BitVec 15 := b1.extractLsb' 0 7 ++ b2

/-! ### Decoding -/

/-- How many operand bytes follow the opcode byte (R70, R80). An unrecognized opcode has none (R102). -/
def operandCount (op : Byte) : Nat :=
  match op.toNat with
  | 0x00 => 0
  | 0x01 => 0
  | 0x02 => 2
  | 0x03 => 2
  | 0x04 => 2
  | 0x05 => 1
  | 0x06 => 1
  | 0x07 => 1
  | 0x08 => 1
  | 0x09 => 2
  | 0x0A => 1
  | 0x0B => 2
  | 0x0C => 2
  | 0x0D => 2
  | 0x0E => 1
  | 0x0F => 1
  | 0x10 => 1
  | 0x11 => 1
  | 0x12 => 3
  | 0x13 => 2
  | 0x14 => 1
  | 0x15 => 1
  | 0x16 => 1
  | 0x17 => 1
  | 0x18 => 1
  | 0x19 => 2
  | 0x20 => 2
  | 0x21 => 0
  | _ => 0

/-- The instruction whose bytes are B0 to B3 (R72, R80, R81): total, because every opcode value selects exactly one
behaviour and every operand byte decodes (R86). A byte past the instruction's length is not looked at. -/
def decodeOp (b0 b1 b2 b3 : Byte) : Instr :=
  match b0.toNat with
  | 0x00 => .nop
  | 0x01 => .hlt
  | 0x02 => .ldi (regField b1 0) b2
  | 0x03 => .ld (regField b1 6) (offsetField b1 b2)
  | 0x04 => .st (regField b1 6) (offsetField b1 b2)
  | 0x05 => .mov (regField b1 2) (regField b1 0)
  | 0x06 => .add (regField b1 4) (regField b1 2) (regField b1 0)
  | 0x07 => .adc (regField b1 4) (regField b1 2) (regField b1 0)
  | 0x08 => .and (regField b1 4) (regField b1 2) (regField b1 0)
  | 0x09 => .jmp (targetField b1 b2)
  | 0x0A => .out (regField b1 0)
  | 0x0B => .cpi (regField b1 0) b2
  | 0x0C => .beq (targetField b1 b2)
  | 0x0D => .bgt (targetField b1 b2)
  | 0x0E => .ldir (regField b1 2) (regField b1 0)
  | 0x0F => .stir (regField b1 2) (regField b1 0)
  | 0x10 => .ldirp (regField b1 4) (pairField b1)
  | 0x11 => .stirp (regField b1 4) (pairField b1)
  | 0x12 => .addiw (pairField b1) (joinBytes b2 b3)
  | 0x13 => .addi (regField b1 0) b2
  | 0x14 => .outp (pairField b1)
  | 0x15 => .outa (regField b1 0)
  | 0x16 => .or (regField b1 4) (regField b1 2) (regField b1 0)
  | 0x17 => .not (regField b1 4) (regField b1 0)
  | 0x18 => .xor (regField b1 4) (regField b1 2) (regField b1 0)
  | 0x19 => .blt (targetField b1 b2)
  | 0x20 => .call (targetField b1 b2)
  | 0x21 => .ret
  | _ => .unrecognized b0

/-- Why a byte list holds no whole instruction. The machine never meets these: its fetch always supplies every byte
(20_memory.md R51, R53). -/
inductive DecodeError where
  /-- the list is empty -/
  | noOpcode
  /-- the opcode's operand bytes are not all there -/
  | truncated (op : Byte)
deriving DecidableEq, Repr

/-- The first instruction of a byte list, with the bytes after it; total on any list, rejecting by name. -/
def decode : List Byte → Except DecodeError (Instr × List Byte)
  | [] => .error .noOpcode
  | b0 :: rest =>
    if rest.length < operandCount b0 then .error (.truncated b0)
    else
      .ok (decodeOp b0 (rest.getD 0 0#8) (rest.getD 1 0#8) (rest.getD 2 0#8), rest.drop (operandCount b0))

/-! ### Encoding -/

/-- An operand byte of format FR3: `00ddaabb`. -/
def packFR3 (d a b : Reg) : Byte := 0#2 ++ d.toBits ++ a.toBits ++ b.toBits

/-- The two operand bytes of format FM: `rroooooo oooooooo`. -/
def packFM (r : Reg) (o : BitVec 14) : List Byte := [r.toBits ++ o.extractLsb' 8 6, o.extractLsb' 0 8]

/-- The two operand bytes of format FT: `0ttttttt tttttttt`. -/
def packFT (t : BitVec 15) : List Byte := [0#1 ++ t.extractLsb' 8 7, t.extractLsb' 0 8]

/-- The bytes of an instruction, ignored bits assembled as 0 (30_encoding.md R72, R87). -/
def encode : Instr → List Byte
  | .nop => [0x00#8]
  | .hlt => [0x01#8]
  | .ldi d imm8 => [0x02#8, 0#6 ++ d.toBits, imm8]
  | .ld d offset14 => 0x03#8 :: packFM d offset14
  | .st src offset14 => 0x04#8 :: packFM src offset14
  | .mov d src => [0x05#8, 0#4 ++ d.toBits ++ src.toBits]
  | .add d a b => [0x06#8, packFR3 d a b]
  | .adc d a b => [0x07#8, packFR3 d a b]
  | .and d a b => [0x08#8, packFR3 d a b]
  | .jmp target15 => 0x09#8 :: packFT target15
  | .out r => [0x0A#8, 0#6 ++ r.toBits]
  | .cpi r imm8 => [0x0B#8, 0#6 ++ r.toBits, imm8]
  | .beq target15 => 0x0C#8 :: packFT target15
  | .bgt target15 => 0x0D#8 :: packFT target15
  | .ldir d a => [0x0E#8, 0#4 ++ d.toBits ++ a.toBits]
  | .stir src a => [0x0F#8, 0#4 ++ src.toBits ++ a.toBits]
  | .ldirp d p => [0x10#8, 0#2 ++ d.toBits ++ 0#3 ++ p.toBits]
  | .stirp src p => [0x11#8, 0#2 ++ src.toBits ++ 0#3 ++ p.toBits]
  | .addiw p imm16 => [0x12#8, 0#7 ++ p.toBits, hiByte imm16, loByte imm16]
  | .addi d imm8 => [0x13#8, 0#6 ++ d.toBits, imm8]
  | .outp p => [0x14#8, 0#7 ++ p.toBits]
  | .outa r => [0x15#8, 0#6 ++ r.toBits]
  | .or d a b => [0x16#8, packFR3 d a b]
  | .not d src => [0x17#8, 0#2 ++ d.toBits ++ 0#2 ++ src.toBits]
  | .xor d a b => [0x18#8, packFR3 d a b]
  | .blt target15 => 0x19#8 :: packFT target15
  | .call target15 => 0x20#8 :: packFT target15
  | .ret => [0x21#8]
  | .unrecognized op => [op]

/-- The opcode byte of an instruction (30_encoding.md R80). -/
def opcodeOf (i : Instr) : Byte := (encode i).headD 0#8

/-! ### The opcode table's words -/

/-- The four bytes, in memory order, of a table word: bit 0 of the table is bit 0 of the first byte, the second byte is
bits 15 to 8, and every bit above `nbits` is 0. Four bytes are the longest instruction (R70). -/
def tableBytes (nbits w : Nat) : List Byte :=
  let v := w % 2 ^ nbits
  [BitVec.ofNat 8 v, BitVec.ofNat 8 (v / 2 ^ 8), BitVec.ofNat 8 (v / 2 ^ 16), BitVec.ofNat 8 (v / 2 ^ 24)]

/-- What the decoder reads from a table word. -/
def decodeTableWord (nbits w : Nat) : Option Instr :=
  match decode (tableBytes nbits w) with
  | .ok (i, _) => some i
  | .error _ => none

end Sys2Proof
end

