-- ==== Sys2Proof/Machine/State.lean ====
section
/-! DEFINITION. The state of the machine (10_state.md R20, R45), the ways a step can stop, and the state after reset. -/

namespace Sys2Proof.Machine

/-- The condition flags of F (10_state.md R31, R33). -/
inductive Flag where
  /-- C, Carry, mask 0x01 -/
  | carry
  /-- Z, Zero, mask 0x02 -/
  | zero
  /-- I, InterruptDisable, mask 0x04: no instruction writes or reads it (R35) -/
  | interruptDisable
  /-- N, Negative, mask 0x08 -/
  | negative
  /-- V, Overflow, mask 0x10 -/
  | overflow
deriving DecidableEq, Repr

/-- The register file: four independently addressable 8-bit registers (10_state.md R21). -/
structure RegFile where
  r0 : Byte
  r1 : Byte
  r2 : Byte
  r3 : Byte
deriving DecidableEq, Repr

/-- An event on the output port (00_scope.md R11). -/
inductive OutEvent where
  /-- from OUT (44_output.md R180) -/
  | dec8 (v : Byte)
  /-- from OUTP (44_output.md R181) -/
  | dec16 (v : Word)
  /-- from OUTA (44_output.md R182) -/
  | char (v : Byte)
deriving DecidableEq, Repr

/-- An event on the diagnostic port (00_scope.md R12). -/
inductive DiagEvent where
  /-- an unrecognized opcode was met (40_machine_control.md R102) -/
  | unknownOpcode (op : Byte)
deriving DecidableEq, Repr

/-- Memory as data: the cells that differ from what an unlisted address reads as, addresses strictly rising
(`Memory.wf` in Ops.lean). It covers all 65536 addresses (20_memory.md R50). -/
abbrev Memory := List Host.Cell

/-- Everything the spec gives the machine (10_state.md R20), the two event ports of its boundary (00_scope.md R11, R12),
and one counter of the model's own. -/
structure State where
  /-- R0 to R3 (R21) -/
  regs : RegFile
  /-- the flag register F (R31, R33) -/
  f : Byte
  /-- the program counter (R28) -/
  pc : Word
  /-- the stack pointer (R36) -/
  sp : Word
  /-- true in the state Halted (R41, R42) -/
  halted : Bool
  /-- decode scratch (R43); a free value after each fetch, log entry 3 -/
  mdrh : Byte
  /-- decode scratch (R43); a free value after each fetch, log entry 3 -/
  mdrl : Byte
  /-- decode scratch (R43); a free value after each fetch, log entry 3 -/
  mar : Word
  /-- the 65536 bytes (20_memory.md R50) -/
  mem : Memory
  /-- the events sent on the output port, oldest first (00_scope.md R11) -/
  out : List OutEvent
  /-- the events sent on the diagnostic port, oldest first (00_scope.md R12) -/
  diag : List DiagEvent
  /-- the MODEL'S own counter of fetches, which keeps the free values of the scratch registers fresh (log entry 3) -/
  scratchTick : Nat
deriving DecidableEq, Repr

/-- Why a step stops without a next state. -/
inductive Fault where
  /-- Raised by `step`, never by an instruction: the core is in state Halted and takes no Step (10_state.md R42;
  92_eei_decisions.md D21, "stuck"). Safe: no property of a step past a halt can be proved. Log entry 5. -/
  | halted
deriving DecidableEq, Repr

/-- Why something is refused. -/
inductive Refusal where
  /-- Raised by an arm of `exec` whose instruction has no meaning yet; no arm of this model does. Safe. -/
  | notModelled (mnemonic : String)
  /-- Raised by `boot`, never by an instruction or a step: the program has more than 65536 bytes
  (70_reset_and_hazards.md R234; 92_eei_decisions.md D26). Safe. Log entry 2. -/
  | programTooLong
deriving DecidableEq, Repr

/-- What an instruction or a step answers. -/
abbrev Result := Host.Outcome State Fault Refusal

/-- The machine right after reset (10_state.md R45), with memory that lists nothing, nothing sent on either port, and the
model's counter at 0 (DESIGN CHOICE, log entries 1 and 3). -/
def State.reset : State where
  regs := ⟨0x00#8, 0x00#8, 0x00#8, 0x00#8⟩
  f := 0x00#8
  pc := 0x0000#16
  sp := 0xFE00#16
  halted := false
  mdrh := 0x00#8
  mdrl := 0x00#8
  mar := 0x0000#16
  mem := []
  out := []
  diag := []
  scratchTick := 0

end Sys2Proof.Machine
end

