-- ==== Sys2Proof/Machine/Ops.lean ====
section
/-! DEFINITION. The named operations over registers, memory, the stack, the ports and the run state (the pseudocode
primitives of 00_scope.md R10). The spec has no exception to take and none to return from (60_exceptions.md R200, R205,
R206): its one abnormal event is `State.unknownOpcode`, and the only way back from it is `State.applyReset`. -/

namespace Sys2Proof.Machine

/-! ### Registers -/

/-- Read of a general register (10_state.md R21). -/
def RegFile.get (g : RegFile) : Reg → Byte
  | .r0 => g.r0
  | .r1 => g.r1
  | .r2 => g.r2
  | .r3 => g.r3

/-- Write of a general register (10_state.md R21, R23). -/
def RegFile.set (g : RegFile) (r : Reg) (v : Byte) : RegFile :=
  match r with
  | .r0 => { g with r0 := v }
  | .r1 => { g with r1 := v }
  | .r2 => { g with r2 := v }
  | .r3 => { g with r3 := v }

/-- `x[r]` (00_scope.md R10). -/
def State.getReg (s : State) (r : Reg) : Byte := s.regs.get r

/-- `x[r] <- v` (00_scope.md R10). -/
def State.setReg (s : State) (r : Reg) (v : Byte) : State := { s with regs := s.regs.set r v }

/-- The register `x[2p]`, which holds a pair's high byte (10_state.md R25). -/
def pairHi : Pair → Reg
  | .p0 => .r0
  | .p1 => .r2

/-- The register `x[2p+1]`, which holds a pair's low byte (10_state.md R25). -/
def pairLo : Pair → Reg
  | .p0 => .r1
  | .p1 => .r3

/-- `pair(p)` (10_state.md R25). -/
def State.getPair (s : State) (p : Pair) : Word := joinBytes (s.getReg (pairHi p)) (s.getReg (pairLo p))

/-- `pair(p) <- v` (10_state.md R26). -/
def State.setPair (s : State) (p : Pair) (v : Word) : State :=
  { s with regs := (s.regs.set (pairHi p) (hiByte v)).set (pairLo p) (loByte v) }

/-- `pc <- v` (00_scope.md R10). -/
def State.setPc (s : State) (v : Word) : State := { s with pc := v }

/-! ### Memory -/

/-- What an address reads as that the cell list does not name. DESIGN CHOICE, unsafe for a claim about the memory of
`State.reset`: log entry 1 (the spec leaves mem0 open, 92_eei_decisions.md D14). -/
def Memory.unlisted : Byte := 0x00#8

/-- The canonical form above `lo`: every address is at least `lo` and below 65536, addresses strictly rise, and no cell
holds what an unlisted address reads as. -/
def Memory.wfFrom : Nat → Memory → Bool
  | _, [] => true
  | lo, c :: m => decide (lo ≤ c.1) && decide (c.1 < 65536) && c.2 != Memory.unlisted && Memory.wfFrom (c.1 + 1) m

/-- The canonical form of a memory: equal memories are equal lists. -/
def Memory.wf (m : Memory) : Bool := Memory.wfFrom 0 m

/-- The byte at a numbered address. -/
def Memory.lookup : Memory → Nat → Byte
  | [], _ => Memory.unlisted
  | c :: m, k => if c.1 = k then c.2 else Memory.lookup m k

/-- The list without the cells of one address. -/
def Memory.erase : Memory → Nat → Memory
  | [], _ => []
  | c :: m, k => if c.1 = k then Memory.erase m k else c :: Memory.erase m k

/-- The list with a cell put in before the first higher address. -/
def Memory.insert : Memory → Nat → Byte → Memory
  | [], k, v => [(k, v)]
  | c :: m, k, v => if k < c.1 then (k, v) :: c :: m else c :: Memory.insert m k v

/-- `MemRead(a, 1)` (20_memory.md R51): it always succeeds. -/
def Memory.read (m : Memory) (a : Addr) : Byte := Memory.lookup m a.toNat

/-- `MemWrite(a, 1, v)` (20_memory.md R52): it always succeeds. -/
def Memory.write (m : Memory) (a : Addr) (v : Byte) : Memory :=
  if v = Memory.unlisted then Memory.erase m a.toNat else Memory.insert (Memory.erase m a.toNat) a.toNat v

/-- The bytes stored one after the other from `a`, modulo 2^16 (the loader, 70_reset_and_hazards.md R234). -/
def Memory.load : Memory → Addr → List Byte → Memory
  | m, _, [] => m
  | m, a, v :: vs => Memory.load (Memory.write m a v) (a + 1#16) vs

/-- Read of one byte (20_memory.md R51). -/
def State.memRead (s : State) (a : Addr) : Byte := Memory.read s.mem a

/-- Write of one byte (20_memory.md R52). -/
def State.memWrite (s : State) (a : Addr) (v : Byte) : State := { s with mem := Memory.write s.mem a v }

/-! ### The stack -/

/-- Push of one byte: write at sp, then decrement (10_state.md R37; 90_conflicts.md C1). -/
def State.push8 (s : State) (v : Byte) : State :=
  { s with mem := Memory.write s.mem s.sp v, sp := s.sp - 1#16 }

/-- Pop of one byte: increment sp, then read (10_state.md R38). -/
def State.pop8 (s : State) : Byte × State :=
  (Memory.read s.mem (s.sp + 1#16), { s with sp := s.sp + 1#16 })

/-- Push of a 16-bit value: the low byte, then the high byte (10_state.md R39). -/
def State.push16 (s : State) (w : Word) : State := (s.push8 (loByte w)).push8 (hiByte w)

/-- Pop of a 16-bit value: the high byte, then the low byte (10_state.md R39). -/
def State.pop16 (s : State) : Word × State :=
  let hi := s.pop8
  let lo := hi.2.pop8
  (joinBytes hi.1 lo.1, lo.2)

/-! ### The ports and the run state -/

/-- `Emit(e)` (00_scope.md R10, R11). -/
def State.emit (s : State) (e : OutEvent) : State := { s with out := s.out ++ [e] }

/-- `Diag(e)` (00_scope.md R10, R12). -/
def State.diagnose (s : State) (e : DiagEvent) : State := { s with diag := s.diag ++ [e] }

/-- `Halt()` (00_scope.md R10; 10_state.md R41). -/
def State.halt (s : State) : State := { s with halted := true }

/-- The one abnormal event (60_exceptions.md R201): the report, then the terminal halt. No register is saved and no handler
runs (R200, R205); pc stays where the opcode fetch left it. -/
def State.unknownOpcode (s : State) (op : Byte) : State := (s.diagnose (.unknownOpcode op)).halt

/-- The reset input (70_reset_and_hazards.md R230): every element of the core's state at its reset value, memory unchanged,
nothing sent on the ports. What was sent before stays sent. -/
def State.applyReset (s : State) : State :=
  { State.reset with mem := s.mem, out := s.out, diag := s.diag, scratchTick := s.scratchTick }

end Sys2Proof.Machine
end

