-- ==== Sys2Proof/Machine/Flags.lean ====
section
/-! DEFINITION. The flag register and the ALU functions with their flags (10_state.md R31 to R35; 42_alu.md R130 to R134). -/

namespace Sys2Proof.Machine

/-- The mask of a flag in F (10_state.md R31). -/
def Flag.mask : Flag → Byte
  | .carry => 0x01#8
  | .zero => 0x02#8
  | .interruptDisable => 0x04#8
  | .negative => 0x08#8
  | .overflow => 0x10#8

/-- A flag of a flag byte, as a Boolean (10_state.md R31). -/
def flagGet (f : Byte) (g : Flag) : Bool := (f &&& g.mask) != 0#8

/-- A flag byte with one flag set or cleared and every other bit kept (10_state.md R31, R34). -/
def flagSet (f : Byte) (g : Flag) (b : Bool) : Byte := if b then f ||| g.mask else f &&& ~~~g.mask

/-- `F.C`, `F.Z`, `F.N`, `F.V`, `F.I` (00_scope.md R10). -/
def State.flag (s : State) (g : Flag) : Bool := flagGet s.f g

/-- `F.C <- b` and its kin (00_scope.md R10). -/
def State.setFlag (s : State) (g : Flag) (b : Bool) : State := { s with f := flagSet s.f g b }

/-- Z and N written, C and V kept (42_alu.md R132, R133). -/
def State.setZN (s : State) (z n : Bool) : State := (s.setFlag .zero z).setFlag .negative n

/-- C, Z and N written, V kept (42_alu.md R134). -/
def State.setCZN (s : State) (c z n : Bool) : State := (s.setFlag .carry c).setZN z n

/-- C, Z, N and V written (42_alu.md R131). -/
def State.setCZNV (s : State) (c z n v : Bool) : State := (s.setCZN c z n).setFlag .overflow v

/-- What `add8` returns. -/
structure Sum8 where
  r : Byte
  c : Bool
  z : Bool
  n : Bool
  v : Bool
deriving DecidableEq, Repr

/-- What `add16` returns. -/
structure Sum16 where
  r : Word
  c : Bool
  z : Bool
  n : Bool
deriving DecidableEq, Repr

/-- 8-bit addition with flags (42_alu.md R131): the sum is formed exactly and then truncated (R130). -/
def add8 (a b : Byte) (cin : Bool) : Sum8 :=
  let sum := a.toNat + b.toNat + cin.toNat
  let r := BitVec.ofNat 8 sum
  { r := r
    c := decide (255 < sum)
    z := r == 0#8
    n := r.getLsbD 7
    v := a.getLsbD 7 == b.getLsbD 7 && r.getLsbD 7 != a.getLsbD 7 }

/-- 8-bit subtraction for the compare (42_alu.md R133). -/
def sub8 (a b : Byte) : Byte := BitVec.ofNat 8 (a.toNat + 256 - b.toNat)

/-- 16-bit addition with flags (42_alu.md R134). -/
def add16 (a b : Word) : Sum16 :=
  let sum := a.toNat + b.toNat
  let r := BitVec.ofNat 16 sum
  { r := r
    c := decide (0xFFFF < sum)
    z := r == 0#16
    n := r.getLsbD 15 }

/-- NOT's function: complement of the source shifted right by 2, zero-filling (42_alu.md R143; 92_eei_decisions.md D5). -/
def notShift (a : Byte) : Byte := ~~~(a >>> 2)

/-- Z and N from an 8-bit result (42_alu.md R132). -/
def State.setLogicFlags (s : State) (r : Byte) : State := s.setZN (r == 0#8) (r.getLsbD 7)

/-- An 8-bit sum into a register, with C, Z, N and V (ADD, ADC, ADDI). -/
def State.putSum8 (s : State) (d : Reg) (q : Sum8) : State := (s.setReg d q.r).setCZNV q.c q.z q.n q.v

/-- A logical result into a register, with Z and N (AND, OR, XOR, NOT). -/
def State.putLogic (s : State) (d : Reg) (r : Byte) : State := (s.setReg d r).setLogicFlags r

/-- A 16-bit sum into a pair, with C, Z and N (ADDIW). -/
def State.putSum16 (s : State) (p : Pair) (q : Sum16) : State := (s.setPair p q.r).setCZN q.c q.z q.n

end Sys2Proof.Machine
end

