-- ==== Sys2Proof/Machine/Alu.lean ====
section
/-! DEFINITION. The ALU instructions (42_alu.md). Every source is read before a destination or a flag is written (R83 of
30_encoding.md), and none touches memory. -/

namespace Sys2Proof.Machine

/-- ADD (R136). -/
def execAdd (d a b : Reg) (s : State) : Result := .next (s.putSum8 d (add8 (s.getReg a) (s.getReg b) false))

/-- ADC (R137): the old C is added in; V is computed from a and b themselves (90_conflicts.md C5). -/
def execAdc (d a b : Reg) (s : State) : Result :=
  .next (s.putSum8 d (add8 (s.getReg a) (s.getReg b) (s.flag .carry)))

/-- AND (R138). -/
def execAnd (d a b : Reg) (s : State) : Result := .next (s.putLogic d (s.getReg a &&& s.getReg b))

/-- CPI (R139): only Z and N; the difference is discarded. -/
def execCpi (r : Reg) (imm8 : Byte) (s : State) : Result := .next (s.setLogicFlags (sub8 (s.getReg r) imm8))

/-- ADDIW (R140). -/
def execAddiw (p : Pair) (imm16 : Word) (s : State) : Result := .next (s.putSum16 p (add16 (s.getPair p) imm16))

/-- ADDI (R141): the carry is not added in. -/
def execAddi (d : Reg) (imm8 : Byte) (s : State) : Result := .next (s.putSum8 d (add8 (s.getReg d) imm8 false))

/-- OR (R142). -/
def execOr (d a b : Reg) (s : State) : Result := .next (s.putLogic d (s.getReg a ||| s.getReg b))

/-- NOT (R143), with its literal pre-shift. -/
def execNot (d src : Reg) (s : State) : Result := .next (s.putLogic d (notShift (s.getReg src)))

/-- XOR (R144). -/
def execXor (d a b : Reg) (s : State) : Result := .next (s.putLogic d (s.getReg a ^^^ s.getReg b))

end Sys2Proof.Machine
end

