-- ==== Sys2Proof/Machine/Operands.lean ====
section
/-! DEFINITION. The effective addresses of 20_memory.md R60. Register, pair and immediate operands are read by `getReg`,
`getPair` and as they stand. -/

namespace Sys2Proof.Machine

/-- The base added to every data address (20_memory.md R60; 00_scope.md R7). -/
def dataBase : Addr := 0x8000#16

/-- Direct: 0x8000 + offset14 (LD, ST). -/
def directAddr (offset14 : BitVec 14) : Addr := dataBase + offset14.zeroExtend 16

/-- Register indirect: 0x8000 + x[a] (LDIR, STIR). -/
def State.regIndirectAddr (s : State) (a : Reg) : Addr := dataBase + (s.getReg a).zeroExtend 16

/-- Pair indirect: trunc_16(0x8000 + pair(p)) (LDIRP, STIRP). It wraps (20_memory.md R53). -/
def State.pairIndirectAddr (s : State) (p : Pair) : Addr := dataBase + s.getPair p

/-- Control target: the 15-bit field as it stands, no base (30_encoding.md R78). -/
def targetAddr (target15 : BitVec 15) : Addr := target15.zeroExtend 16

end Sys2Proof.Machine
end

