-- ==== Sys2Proof/Machine/ControlTransfer.lean ====
section
/-! DEFINITION. Control transfer (43_control_transfer.md). pc is already the address after the operand bytes, so a branch
that is not taken leaves it (R161), and CALL pushes it (R164). -/

namespace Sys2Proof.Machine

/-- A branch on a condition, the shared shape of BEQ, BGT and BLT: not taken, it leaves pc alone. -/
def State.branchIf (s : State) (cond : Bool) (target15 : BitVec 15) : State :=
  s.setPc (if cond then targetAddr target15 else s.pc)

/-- JMP (R160). -/
def execJmp (target15 : BitVec 15) (s : State) : Result := .next (s.setPc (targetAddr target15))

/-- BEQ (R161): taken iff Z is set. -/
def execBeq (target15 : BitVec 15) (s : State) : Result := .next (s.branchIf (s.flag .zero) target15)

/-- BGT (R162): taken iff N is clear, equality included (90_conflicts.md C9). -/
def execBgt (target15 : BitVec 15) (s : State) : Result := .next (s.branchIf (!s.flag .negative) target15)

/-- BLT (R163): taken iff N is set. -/
def execBlt (target15 : BitVec 15) (s : State) : Result := .next (s.branchIf (s.flag .negative) target15)

/-- CALL (R164). -/
def execCall (target15 : BitVec 15) (s : State) : Result := .next ((s.push16 s.pc).setPc (targetAddr target15))

/-- RET (R165). -/
def execRet (s : State) : Result := .next (s.pop16.2.setPc s.pop16.1)

end Sys2Proof.Machine
end

