-- ==== Sys2Proof/Machine/DataTransfer.lean ====
section
/-! DEFINITION. Data transfer (41_data_transfer.md). None of these writes a flag, and none can fault. -/

namespace Sys2Proof.Machine

/-- LDI (R110). -/
def execLdi (d : Reg) (imm8 : Byte) (s : State) : Result := .next (s.setReg d imm8)

/-- LD (R111). -/
def execLd (d : Reg) (offset14 : BitVec 14) (s : State) : Result :=
  .next (s.setReg d (s.memRead (directAddr offset14)))

/-- ST (R112). -/
def execSt (src : Reg) (offset14 : BitVec 14) (s : State) : Result :=
  .next (s.memWrite (directAddr offset14) (s.getReg src))

/-- MOV (R113). -/
def execMov (d src : Reg) (s : State) : Result := .next (s.setReg d (s.getReg src))

/-- LDIR (R114): the address is formed from the old x[a]. -/
def execLdir (d a : Reg) (s : State) : Result := .next (s.setReg d (s.memRead (s.regIndirectAddr a)))

/-- STIR (R115). -/
def execStir (src a : Reg) (s : State) : Result := .next (s.memWrite (s.regIndirectAddr a) (s.getReg src))

/-- LDIRP (R116): the address is formed from the old pair. -/
def execLdirp (d : Reg) (p : Pair) (s : State) : Result := .next (s.setReg d (s.memRead (s.pairIndirectAddr p)))

/-- STIRP (R117). -/
def execStirp (src : Reg) (p : Pair) (s : State) : Result :=
  .next (s.memWrite (s.pairIndirectAddr p) (s.getReg src))

end Sys2Proof.Machine
end

