-- ==== Sys2Proof/Machine/MachineControl.lean ====
section
/-! DEFINITION. Machine control: NOP, HLT and the unrecognized opcodes (40_machine_control.md). Every meaning is applied to
the state after the instruction's bytes were fetched, so pc is already trunc_16(A + L) (10_state.md R29). -/

namespace Sys2Proof.Machine

/-- NOP (R100): nothing beyond the fetch. -/
def execNop (s : State) : Result := .next s

/-- HLT (R101). -/
def execHlt (s : State) : Result := .next s.halt

/-- An unrecognized opcode (R102): the diagnostic event, then the halt. -/
def execUnrecognized (op : Byte) (s : State) : Result := .next (s.unknownOpcode op)

end Sys2Proof.Machine
end

