-- ==== Sys2Proof/Config.lean ====
section
/-! DEFINITION. What the spec leaves to a parameter or calls "any value": constants without a body, so that no proof can
know their value. -/

namespace Sys2Proof.Config

/-- Free value (93_implementation_defined.md row 8, "any value"; R43): what MDRH holds after the n-th fetch.
DESIGN CHOICE, safe: log entry 3. -/
opaque freeMdrh : Nat → Byte

/-- Free value (93_implementation_defined.md row 8; R43): what MDRL holds after the n-th fetch. Log entry 3. -/
opaque freeMdrl : Nat → Byte

/-- Free value (93_implementation_defined.md row 8; R43): what MAR holds after the n-th fetch. Log entry 3. -/
opaque freeMar : Nat → Word

/-- The character the output sink shows for a code. The source names no character set (R182;
93_implementation_defined.md row 4, "any value"). DESIGN CHOICE, safe: log entry 9. -/
opaque sinkGlyph : Byte → Char

end Sys2Proof.Config
end

