-- ==== Sys2Proof/Machine/Output.lean ====
section
/-! DEFINITION. Display output (44_output.md): one event for each instruction, and the sink's contract for showing it. -/

namespace Sys2Proof.Machine

/-- OUT (R180). -/
def execOut (r : Reg) (s : State) : Result := .next (s.emit (.dec8 (s.getReg r)))

/-- OUTP (R181). -/
def execOutp (p : Pair) (s : State) : Result := .next (s.emit (.dec16 (s.getPair p)))

/-- OUTA (R182). -/
def execOuta (r : Reg) (s : State) : Result := .next (s.emit (.char (s.getReg r)))

/-- How the sink shows an event (R180 to R182): unsigned decimal without leading zeros and one line break, or one character
whose choice the spec leaves open. The sink is outside the core; no instruction reads this. -/
def renderEvent : OutEvent → List Char
  | .dec8 v => Nat.toDigits 10 v.toNat ++ ['\n']
  | .dec16 v => Nat.toDigits 10 v.toNat ++ ['\n']
  | .char v => [Config.sinkGlyph v]

/-- The text of all events sent so far, in program order (00_scope.md R11). -/
def State.shownText (s : State) : List Char := s.out.flatMap renderEvent

end Sys2Proof.Machine
end

