-- ==== Sys2Proof/Machine/Dispatch.lean ====
section
/-! DEFINITION. The meaning of each instruction, one arm per constructor (30_encoding.md R80, R83). -/

namespace Sys2Proof.Machine

/-- The effect of an instruction on the state after its bytes were fetched (R83). -/
def exec (i : Instr) (s : State) : Host.Outcome State Fault Refusal :=
  match i with
  | .nop => Sys2Proof.Machine.execNop s
  | .hlt => Sys2Proof.Machine.execHlt s
  | .ldi d imm8 => Sys2Proof.Machine.execLdi d imm8 s
  | .ld d offset14 => Sys2Proof.Machine.execLd d offset14 s
  | .st src offset14 => Sys2Proof.Machine.execSt src offset14 s
  | .mov d src => Sys2Proof.Machine.execMov d src s
  | .add d a b => Sys2Proof.Machine.execAdd d a b s
  | .adc d a b => Sys2Proof.Machine.execAdc d a b s
  | .and d a b => Sys2Proof.Machine.execAnd d a b s
  | .jmp target15 => Sys2Proof.Machine.execJmp target15 s
  | .out r => Sys2Proof.Machine.execOut r s
  | .cpi r imm8 => Sys2Proof.Machine.execCpi r imm8 s
  | .beq target15 => Sys2Proof.Machine.execBeq target15 s
  | .bgt target15 => Sys2Proof.Machine.execBgt target15 s
  | .ldir d a => Sys2Proof.Machine.execLdir d a s
  | .stir src a => Sys2Proof.Machine.execStir src a s
  | .ldirp d p => Sys2Proof.Machine.execLdirp d p s
  | .stirp src p => Sys2Proof.Machine.execStirp src p s
  | .addiw p imm16 => Sys2Proof.Machine.execAddiw p imm16 s
  | .addi d imm8 => Sys2Proof.Machine.execAddi d imm8 s
  | .outp p => Sys2Proof.Machine.execOutp p s
  | .outa r => Sys2Proof.Machine.execOuta r s
  | .or d a b => Sys2Proof.Machine.execOr d a b s
  | .not d src => Sys2Proof.Machine.execNot d src s
  | .xor d a b => Sys2Proof.Machine.execXor d a b s
  | .blt target15 => Sys2Proof.Machine.execBlt target15 s
  | .call target15 => Sys2Proof.Machine.execCall target15 s
  | .ret => Sys2Proof.Machine.execRet s
  | .unrecognized op => Sys2Proof.Machine.execUnrecognized op s

end Sys2Proof.Machine
end

