-- ==== Sys2Proof/Machine/Fetch.lean ====
section
/-! DEFINITION. The fetch unit (30_encoding.md R71, R83, R84). -/

namespace Sys2Proof.Machine

/-- `Fetch8()` (R84): the byte at pc, and pc one further, modulo 2^16. -/
def State.fetch8 (s : State) : Byte × State := (Memory.read s.mem s.pc, { s with pc := s.pc + 1#16 })

/-- Some operand bytes, one `Fetch8()` each, in order (R65 of 20_memory.md; R71). -/
def State.fetchOperands : Nat → State → List Byte × State
  | 0, s => ([], s)
  | n + 1, s =>
    let b := s.fetch8
    let rest := State.fetchOperands n b.2
    (b.1 :: rest.1, rest.2)

/-- The decode scratch after a fetch: free values (10_state.md R43; 93_implementation_defined.md row 8). Log entry 3. -/
def State.clobberScratch (s : State) : State :=
  { s with
    mdrh := Config.freeMdrh s.scratchTick
    mdrl := Config.freeMdrl s.scratchTick
    mar := Config.freeMar s.scratchTick
    scratchTick := s.scratchTick + 1 }

/-- The instruction at pc and the state after all its bytes were fetched (R83): the opcode byte, then as many operand bytes
as the opcode fixes (R70). -/
def State.fetchInstr (s : State) : Instr × State :=
  let op := s.fetch8
  let operands := State.fetchOperands (operandCount op.1) op.2
  (decodeOp op.1 (operands.1.getD 0 0#8) (operands.1.getD 1 0#8) (operands.1.getD 2 0#8),
    operands.2.clobberScratch)

/-- The state with four bytes placed where the next instruction is fetched from. -/
def State.placeAtPc (s : State) (bytes : List Byte) : State := { s with mem := Memory.load s.mem s.pc bytes }

end Sys2Proof.Machine
end

