-- ==== Sys2Proof/Machine/Step.lean ====
section
/-! DEFINITION. One Step (30_encoding.md R83) and the placing of an instruction word where the next Step fetches. -/

namespace Sys2Proof.Machine

/-- One Step (R83): none in the state Halted (10_state.md R42); else fetch, decode and execute one instruction. -/
def step (s : State) : Host.Outcome State Fault Refusal :=
  if s.halted then .fault .halted else exec s.fetchInstr.1 s.fetchInstr.2

/-- `s` with a table word's instruction stored at pc and the core Running, so that the next step runs it. It stands for the
loader of 70_reset_and_hazards.md R234 (log entry 2). -/
def State.withFetchWord (s : State) (nbits w : Nat) : State :=
  { s.placeAtPc (tableBytes nbits w) with halted := false }

end Sys2Proof.Machine
end

