-- ==== Sys2Proof/Machine/Control.lean ====
section
/-! DEFINITION. What the outside does to the core: the reset and step inputs, Run, and the loader's effect at boot
(00_scope.md R14; 30_encoding.md R85; 70_reset_and_hazards.md R230, R231, R234). -/

namespace Sys2Proof.Machine

/-- The control inputs (00_scope.md R14). -/
inductive Control where
  | reset
  | step
deriving DecidableEq, Repr

/-- One control input. Reset lands only between Steps, because a Step is one transition (70_reset_and_hazards.md R231). -/
def drive (c : Control) (s : State) : Result :=
  match c with
  | .reset => .next s.applyReset
  | .step => step s

/-- `Run` (30_encoding.md R85), for at most `n` Steps: steps while the core is Running. -/
def runFor : Nat → State → Result
  | 0, s => .next s
  | n + 1, s =>
    if s.halted then .next s
    else
      match step s with
      | .next t => runFor n t
      | .fault r => .fault r
      | .refused r => .refused r

/-- The launch state of a run (70_reset_and_hazards.md R234; 20_memory.md R62): the reset state, with the program copied to
0x0000 over the parameter mem0 (00_scope.md R8). A program longer than the address space is refused (D26). -/
def boot (mem0 : Memory) (program : List Byte) : Result :=
  if 65536 < program.length then .refused .programTooLong
  else .next { State.reset with mem := Memory.load mem0 0x0000#16 program }

end Sys2Proof.Machine
end

