-- ==== Sys2Proof/Safety.lean ====
section
/-! DEFINITION. The terms in which claims are stated: what an instruction leaves alone, the state invariant, and which
outcomes are safe. -/

namespace Sys2Proof.Machine

/-- Every general register outside `ds` reads as before. -/
def KeepsRegs (ds : List Reg) (s t : State) : Prop := ∀ r, r ∉ ds → t.getReg r = s.getReg r

/-- Every flag outside `gs` reads as before, and so do bits 7:5 of F. -/
def KeepsFlags (gs : List Flag) (s t : State) : Prop :=
  (∀ g, g ∉ gs → t.flag g = s.flag g) ∧ t.f &&& 0xE0#8 = s.f &&& 0xE0#8

/-- Every byte of memory outside the addresses `stored` reads as before. -/
def KeepsMem (stored : List Addr) (s t : State) : Prop := ∀ a, a ∉ stored → t.memRead a = s.memRead a

/-- Both event ports hold what they held. -/
def KeepsPorts (s t : State) : Prop := t.out = s.out ∧ t.diag = s.diag

/-- The decode scratch holds what it held. -/
def KeepsScratch (s t : State) : Prop :=
  t.mdrh = s.mdrh ∧ t.mdrl = s.mdrl ∧ t.mar = s.mar ∧ t.scratchTick = s.scratchTick

/-- The run state, the stack pointer, the ports and the scratch hold what they held. -/
def KeepsRest (s t : State) : Prop :=
  t.sp = s.sp ∧ t.halted = s.halted ∧ KeepsPorts s t ∧ KeepsScratch s t

/-- F has no bit set that no instruction writes: I and bits 7:5 (10_state.md R33, R35). -/
def State.reservedClear (s : State) : Prop := s.f &&& 0xE4#8 = 0x00#8

/-- The invariant: memory is canonical, and F's unwritten bits are 0. -/
def Inv (s : State) : Prop := Memory.wf s.mem = true ∧ s.reservedClear

/-- An outcome is safe if the machine goes on, or stands still because it is Halted. -/
def SafeResult : Result → Prop
  | .next _ => True
  | .fault .halted => True
  | .refused _ => False

/-! ### The rules of the spec in numbers, for claims -/

/-- The register field of an operand byte that starts at bit `lo` (30_encoding.md R72, R73). -/
def FieldIs (r : Reg) (b : Byte) (lo : Nat) : Prop := r.index = b.toNat / 2 ^ lo % 4

/-- The pair field, bit 0 of an operand byte (30_encoding.md R74). -/
def PairFieldIs (p : Pair) (b : Byte) : Prop := p.index = b.toNat % 2

/-- offset14 from B1 and B2 (30_encoding.md R77). -/
def OffsetIs (o : BitVec 14) (b1 b2 : Byte) : Prop := o.toNat = b1.toNat % 64 * 256 + b2.toNat

/-- target15 from B1 and B2 (30_encoding.md R78). -/
def TargetIs (t : BitVec 15) (b1 b2 : Byte) : Prop := t.toNat = b1.toNat % 128 * 256 + b2.toNat

/-- Z and N of an 8-bit result (42_alu.md R132). -/
def ZNSpec (r : Byte) (t : State) : Prop :=
  (t.flag .zero = true ↔ r.toNat = 0) ∧ (t.flag .negative = true ↔ 128 ≤ r.toNat)

/-- The result and the four flags of an 8-bit sum (42_alu.md R131). -/
def Sum8Spec (a b : Byte) (cin : Nat) (r : Byte) (t : State) : Prop :=
  r.toNat = (a.toNat + b.toNat + cin) % 256 ∧
  (t.flag .carry = true ↔ 255 < a.toNat + b.toNat + cin) ∧
  ZNSpec r t ∧
  (t.flag .overflow = true ↔ (128 ≤ a.toNat ↔ 128 ≤ b.toNat) ∧ ¬(128 ≤ r.toNat ↔ 128 ≤ a.toNat))

/-- The bits of B1 that a field of the instruction uses (30_encoding.md R72): the `x` bits are the others (R79). -/
def usedB1 (op : Byte) : Byte :=
  if op ∈ [0x02#8, 0x0A#8, 0x0B#8, 0x13#8, 0x15#8] then 0x03#8
  else if op ∈ [0x05#8, 0x0E#8, 0x0F#8] then 0x0F#8
  else if op ∈ [0x06#8, 0x07#8, 0x08#8, 0x16#8, 0x18#8] then 0x3F#8
  else if op = 0x17#8 then 0x33#8
  else if op ∈ [0x10#8, 0x11#8] then 0x31#8
  else if op ∈ [0x12#8, 0x14#8] then 0x01#8
  else if op ∈ [0x03#8, 0x04#8] then 0xFF#8
  else if op ∈ [0x09#8, 0x0C#8, 0x0D#8, 0x19#8, 0x20#8] then 0x7F#8
  else 0x00#8

/-- The bytes of the instruction at pc, as many as its opcode fixes (30_encoding.md R70, R71). -/
def State.bytesAtPc (s : State) : List Byte :=
  (List.range (operandCount (s.memRead s.pc) + 1)).map fun k => s.memRead (s.pc + BitVec.ofNat 16 k)

/-- `u` is `s` after the fetch of the instruction at pc: pc past its bytes (10_state.md R29), the scratch a free value
(R43), nothing else changed. -/
def FetchedFrom (s u : State) : Prop :=
  u.pc.toNat = (s.pc.toNat + operandCount (s.memRead s.pc) + 1) % 65536 ∧
  u.regs = s.regs ∧ u.f = s.f ∧ u.sp = s.sp ∧ u.halted = s.halted ∧ u.mem = s.mem ∧ KeepsPorts s u ∧
  u.mdrh = Config.freeMdrh s.scratchTick ∧ u.mdrl = Config.freeMdrl s.scratchTick ∧
  u.mar = Config.freeMar s.scratchTick ∧ u.scratchTick = s.scratchTick + 1

end Sys2Proof.Machine
end

