-- ==== Sys2Proof/Certificates/Slice0/Obligations.lean ====
section
/-! DEFINITION. The statements about the model. `exec i s` is an instruction's effect on the state after its bytes were
fetched, so `s.pc` there is trunc_16(A + L) (10_state.md R29); `step` is the whole Step (30_encoding.md R83). -/

open Sys2Proof Sys2Proof.Machine

/-! ### Reset, boot and the run state -/

/-- R230: what the reset input does, from every state. That memory is unchanged is the spec's own choice D17 (log entry
11). -/
def Obligations.ResetSetsEveryCoreElement : Prop :=
  ∀ s : State, ∃ t, drive .reset s = .next t ∧
    (∀ r, t.getReg r = 0x00#8) ∧ t.f = 0x00#8 ∧ t.pc = 0x0000#16 ∧ t.sp = 0xFE00#16 ∧ t.halted = false ∧
    t.mdrh = 0x00#8 ∧ t.mdrl = 0x00#8 ∧ t.mar = 0x0000#16 ∧ KeepsMem [] s t ∧ KeepsPorts s t

/-- R45 with R32 and R33: the register values of the state after reset. -/
def Obligations.ResetStateHoldsTheTableValues : Prop :=
  (∀ r, State.reset.getReg r = 0x00#8) ∧ (∀ g, State.reset.flag g = false) ∧ State.reset.f = 0x00#8 ∧
  State.reset.pc = 0x0000#16 ∧ State.reset.sp = 0xFE00#16 ∧ State.reset.halted = false ∧
  State.reset.mdrh = 0x00#8 ∧ State.reset.mdrl = 0x00#8 ∧ State.reset.mar = 0x0000#16 ∧
  State.reset.out = [] ∧ State.reset.diag = []

/-- R232: after reset the first Step runs the instruction whose bytes lie at 0x0000. That the bytes are those before the
reset is the spec's own choice D17 (log entry 11), and the scratch after the fetch is the model's free value (log entry
3). -/
def Obligations.FirstStepAfterResetRunsAddressZero : Prop :=
  ∀ s : State, ∃ t u, drive .reset s = .next t ∧
    step t = exec (decodeOp (s.memRead 0x0000#16) (s.memRead 0x0001#16) (s.memRead 0x0002#16) (s.memRead 0x0003#16)) u ∧
    FetchedFrom t u ∧ t.pc = 0x0000#16

/-- R41: only HLT and an unrecognized opcode set halted, nothing but reset clears it; and every instruction completes.
That no Step starts from Halted is the spec's own choice D21 (log entry 5). -/
def Obligations.OnlyHltAndUnrecognizedSetHalted : Prop :=
  State.reset.halted = false ∧
  (∀ (i : Instr) (s : State), ∃ t, exec i s = .next t ∧
    (t.halted = true ↔ s.halted = true ∨ i = .hlt ∨ ∃ op, i = .unrecognized op)) ∧
  (∀ s t : State, step s = .next t → s.halted = false) ∧
  ∀ s : State, ∃ t, drive .reset s = .next t ∧ t.halted = false

/-- R42: a Running core takes a Step, which ends Halted exactly on HLT or an unrecognized opcode, the latter with its
diagnostic; a Halted core takes none. That a Halted core takes no Step is the spec's own choice D21, and the fault is the
model's form of it (log entry 5). -/
def Obligations.RunningStepsAndHaltedDoesNot : Prop :=
  State.reset.halted = false ∧
  (∀ s : State, s.halted = true → step s = .fault .halted) ∧
  (∀ s : State, s.halted = false → ∃ t, step s = .next t ∧
    (t.halted = true ↔ s.memRead s.pc = 0x01#8 ∨ recognizedOpcode (s.memRead s.pc) = false) ∧
    (recognizedOpcode (s.memRead s.pc) = true → t.diag = s.diag) ∧
    (recognizedOpcode (s.memRead s.pc) = false → t.diag = s.diag ++ [.unknownOpcode (s.memRead s.pc)])) ∧
  ∀ s : State, ∃ t, drive .reset s = .next t ∧ t.halted = false

/-- R85: Run goes on while the core is Running, never stops for another reason, and is final once Halted. The bound is
the model's form of Run (log entry 11). -/
def Obligations.RunEndsOnlyWhenHalted : Prop :=
  ∀ (n : Nat) (s : State), ∃ t, runFor n s = .next t ∧
    (t.halted = true → ∀ k, runFor (n + k) s = .next t) ∧
    (t.halted = false → runFor (n + 1) s = step t)

/-- R62 and R234: the launch state holds the program from 0x0000 over mem0, everything else at reset. That a program that
does not fit is refused is the spec's own choice D26, and the form of the launch the model's (log entry 2). -/
def Obligations.BootOverlaysProgramOnMem0 : Prop :=
  ∀ (mem0 : Memory) (program : List Byte),
    (program.length ≤ 65536 → ∃ t, boot mem0 program = .next t ∧
      (∀ a : Addr, t.memRead a = program.getD a.toNat (Memory.read mem0 a)) ∧
      t = { State.reset with mem := t.mem }) ∧
    (65536 < program.length → boot mem0 program = .refused .programTooLong)

/-! ### Fetch and decode -/

/-- R84: one fetch. The wrap of pc is the spec's own choice D3 (log entry 7). -/
def Obligations.Fetch8ReadsAtPcAndIncrements : Prop :=
  ∀ s : State, s.fetch8.1 = s.memRead s.pc ∧ s.fetch8.2.pc.toNat = (s.pc.toNat + 1) % 65536 ∧
    KeepsRegs [] s s.fetch8.2 ∧ KeepsFlags [] s s.fetch8.2 ∧ KeepsMem [] s s.fetch8.2 ∧ KeepsRest s s.fetch8.2

/-- R83: a Step is the effect of the instruction whose bytes lie at pc, on the state after they were fetched. The wrap of
pc is the spec's own choice D3 (log entry 7), and the scratch is the model's free value (log entry 3). -/
def Obligations.StepRunsTheDecodedInstruction : Prop :=
  ∀ (s : State) (i : Instr), s.halted = false → WellFormed i → decode s.bytesAtPc = .ok (i, []) →
    ∃ u, step s = exec i u ∧ FetchedFrom s u

/-- R86: decoding fails on no byte sequence that holds the bytes the opcode fixes, and gives a well-formed instruction of
that opcode and length. That unused bits never matter and an unrecognized opcode has no operand byte are the spec's own
choices D11 and D12 (log entry 8). -/
def Obligations.DecodingIsTotal : Prop :=
  (∀ (b0 : Byte) (rest : List Byte), operandCount b0 ≤ rest.length →
    ∃ i, decode (b0 :: rest) = .ok (i, rest.drop (operandCount b0)) ∧ WellFormed i ∧ opcodeOf i = b0 ∧
      (encode i).length = operandCount b0 + 1) ∧
  (∀ (b0 : Byte) (rest : List Byte), rest.length < operandCount b0 → decode (b0 :: rest) = .error (.truncated b0)) ∧
  decode [] = .error .noOpcode ∧
  ∀ s : State, ∃ i, decode s.bytesAtPc = .ok (i, [])

/-- R72, R87: decoding the encoding of a well-formed instruction gives it back, whatever bytes follow. The encoder's
zeros in ignored bits and AND's destination field are the spec's own choices D16 and D7 (log entry 8). -/
def Obligations.DecodeOfEncodeIsTheInstruction : Prop :=
  ∀ (i : Instr) (rest : List Byte), WellFormed i → decode (encode i ++ rest) = .ok (i, rest)

/-- R72 and R79: two sequences with one opcode decode alike exactly when they agree on the bits that are fields; no other
bit matters, and no field bit is dropped. That unused bits never matter and AND's destination is B1[5:4] are the spec's
own choices D11 and D7 (log entry 8). -/
def Obligations.ExactlyTheFieldBitsMatter : Prop :=
  ∀ b0 b1 b2 b3 c1 c2 c3 : Byte,
    decodeOp b0 b1 b2 b3 = decodeOp b0 c1 c2 c3 ↔
      b1 &&& usedB1 b0 = c1 &&& usedB1 b0 ∧ (2 ≤ operandCount b0 → b2 = c2) ∧ (3 ≤ operandCount b0 → b3 = c3)

/-- A few words written out from R72 and R80. The last two words rest on the spec's own choices D11 and D12 (log entry
8). -/
def Obligations.WordsOfTheSpecDecode : Prop :=
  decode [0x03#8, 0x41#8, 0x23#8] = .ok (.ld .r1 0x0123#14, []) ∧
  decode [0x06#8, 0x21#8] = .ok (.add .r2 .r0 .r1, []) ∧
  decode [0x12#8, 0x01#8, 0x00#8, 0x02#8] = .ok (.addiw .p1 0x0002#16, []) ∧
  decode [0x20#8, 0x00#8, 0x0D#8] = .ok (.call 0x000D#15, []) ∧
  decode [0x14#8, 0xFE#8] = .ok (.outp .p0, []) ∧
  decode [0x1A#8] = .ok (.unrecognized 0x1A#8, [])

/-- A table word placed by `withFetchWord` is what the next step runs (log entry 2 for the loader it stands for). The
placing is the model's form of the load (log entry 2), and the scratch after the fetch its free value (log entry 3). -/
def Obligations.PlacedWordRunsNext : Prop :=
  ∀ (s : State) (nbits w : Nat) (i : Instr), decodeTableWord nbits w = some i →
    ∃ u, step (s.withFetchWord nbits w) = exec i u ∧ FetchedFrom (s.withFetchWord nbits w) u ∧
      u.regs = s.regs ∧ u.f = s.f ∧ u.sp = s.sp

/-! ### Machine control -/

/-- R100. The wrap of pc at 0xFFFF is the spec's own choice D3 (log entry 7). -/
def Obligations.NopOnlyMovesPc : Prop :=
  (operandCount 0x00#8 = 0 ∧ ∀ b1 b2 b3, decodeOp 0x00#8 b1 b2 b3 = .nop) ∧
  (∀ s : State, ∃ t, exec .nop s = .next t ∧
    KeepsRegs [] s t ∧ KeepsFlags [] s t ∧ KeepsMem [] s t ∧ t.pc = s.pc ∧ KeepsRest s t) ∧
  ∀ s : State, s.halted = false → s.memRead s.pc = 0x00#8 → ∃ t, step s = .next t ∧
    t.pc.toNat = (s.pc.toNat + 1) % 65536 ∧ t.halted = false ∧
    KeepsRegs [] s t ∧ KeepsFlags [] s t ∧ KeepsMem [] s t ∧ t.sp = s.sp ∧ KeepsPorts s t

/-- R101. The fault after it is the model's form of the spec's own choice D21 (log entry 5), and the wrap of pc is its
choice D3 (log entry 7). -/
def Obligations.HltHalts : Prop :=
  (operandCount 0x01#8 = 0 ∧ ∀ b1 b2 b3, decodeOp 0x01#8 b1 b2 b3 = .hlt) ∧
  (∀ s : State, ∃ t, exec .hlt s = .next t ∧ t.halted = true ∧ step t = .fault .halted ∧
    KeepsRegs [] s t ∧ KeepsFlags [] s t ∧ KeepsMem [] s t ∧ t.pc = s.pc ∧ t.sp = s.sp ∧
    KeepsPorts s t ∧ KeepsScratch s t) ∧
  ∀ s : State, s.halted = false → s.memRead s.pc = 0x01#8 → ∃ t, step s = .next t ∧
    t.pc.toNat = (s.pc.toNat + 1) % 65536 ∧ t.halted = true ∧
    KeepsRegs [] s t ∧ KeepsFlags [] s t ∧ KeepsMem [] s t ∧ t.sp = s.sp ∧ KeepsPorts s t

/-- R81, R102: which opcode values are unrecognized, and what each of them does. That no operand byte is fetched and pc
is A + 1 is the spec's own choice D12 (log entry 8), and the wrap of pc its choice D3 (log entry 7). -/
def Obligations.UnrecognizedOpcodeReportsAndHalts : Prop :=
  (∀ op b1 b2 b3 : Byte, (0x1A ≤ op.toNat ∧ op.toNat ≤ 0x1F ∨ 0x22 ≤ op.toNat) ↔
    decodeOp op b1 b2 b3 = .unrecognized op) ∧
  (∀ op : Byte, recognizedOpcode op = false → operandCount op = 0) ∧
  (∀ (op : Byte) (s : State), ∃ t, exec (.unrecognized op) s = .next t ∧
    t.halted = true ∧ t.diag = s.diag ++ [.unknownOpcode op] ∧ t.out = s.out ∧
    KeepsRegs [] s t ∧ KeepsFlags [] s t ∧ KeepsMem [] s t ∧ t.pc = s.pc ∧ t.sp = s.sp ∧ KeepsScratch s t) ∧
  ∀ s : State, s.halted = false → recognizedOpcode (s.memRead s.pc) = false → ∃ t, step s = .next t ∧
    t.pc.toNat = (s.pc.toNat + 1) % 65536 ∧ t.halted = true ∧
    t.diag = s.diag ++ [.unknownOpcode (s.memRead s.pc)] ∧ t.out = s.out ∧
    KeepsRegs [] s t ∧ KeepsFlags [] s t ∧ KeepsMem [] s t ∧ t.sp = s.sp

/-! ### Registers, pairs, memory, stack -/

/-- R25 and R26: the pair is 256 * high + low of its two registers, and a pair write writes exactly these two. -/
def Obligations.PairIsHighLowOfItsRegisters : Prop :=
  (∀ s : State, (s.getPair .p0).toNat = (s.getReg .r0).toNat * 256 + (s.getReg .r1).toNat ∧
    (s.getPair .p1).toNat = (s.getReg .r2).toNat * 256 + (s.getReg .r3).toNat) ∧
  ∀ (s : State) (v : Word),
    ((s.setPair .p0 v).getReg .r0).toNat = v.toNat / 256 ∧ ((s.setPair .p0 v).getReg .r1).toNat = v.toNat % 256 ∧
    KeepsRegs [.r0, .r1] s (s.setPair .p0 v) ∧
    ((s.setPair .p1 v).getReg .r2).toNat = v.toNat / 256 ∧ ((s.setPair .p1 v).getReg .r3).toNat = v.toNat % 256 ∧
    KeepsRegs [.r2, .r3] s (s.setPair .p1 v)

/-- R60: the effective address of every mode, in numbers. -/
def Obligations.EffectiveAddressesAreAsTabulated : Prop :=
  (∀ s : State, s.fetch8.1 = s.memRead s.pc) ∧
  (∀ o : BitVec 14, (directAddr o).toNat = 0x8000 + o.toNat ∧ (directAddr o).toNat ≤ 0xBFFF) ∧
  (∀ (s : State) (a : Reg), (s.regIndirectAddr a).toNat = 0x8000 + (s.getReg a).toNat ∧
    (s.regIndirectAddr a).toNat ≤ 0x80FF) ∧
  (∀ (s : State) (p : Pair), (s.pairIndirectAddr p).toNat = (0x8000 + (s.getPair p).toNat) % 65536) ∧
  (∀ (s : State) (v : Byte), (s.push8 v).memRead s.sp = v ∧ s.pop8.1 = s.memRead (s.sp + 1#16)) ∧
  (∀ t : BitVec 15, (targetAddr t).toNat = t.toNat ∧ (targetAddr t).toNat ≤ 0x7FFF)

/-- R37 and R38: push writes and then decrements, pop increments and then reads, at every sp. The wrap of sp is the
spec's own choice D4, and the order of the push its resolution C1 (log entry 7). -/
def Obligations.PushAndPopOfOneByte : Prop :=
  ∀ (s : State) (v : Byte),
    ((s.push8 v).memRead s.sp = v ∧ (s.push8 v).sp.toNat = (s.sp.toNat + 65535) % 65536 ∧
      KeepsMem [s.sp] s (s.push8 v) ∧ KeepsRegs [] s (s.push8 v) ∧ (s.push8 v).pc = s.pc) ∧
    (s.pop8.2.sp.toNat = (s.sp.toNat + 1) % 65536 ∧ s.pop8.1 = s.memRead s.pop8.2.sp ∧
      KeepsMem [] s s.pop8.2 ∧ KeepsRegs [] s s.pop8.2 ∧ s.pop8.2.pc = s.pc)

/-- R39: where a pushed 16-bit value lies, and that a pop recovers it, at every sp (the wrap included). The wrap of sp is
the spec's own choice D4, and the order of the push its resolution C1 (log entry 7). -/
def Obligations.PopRecoversThePushedWord : Prop :=
  ∀ (s : State) (w : Word),
    ((s.push16 w).memRead s.sp).toNat = w.toNat % 256 ∧
    ((s.push16 w).memRead (s.sp - 1#16)).toNat = w.toNat / 256 ∧
    (s.push16 w).sp = s.sp - 2#16 ∧ KeepsMem [s.sp, s.sp - 1#16] s (s.push16 w) ∧
    (s.push16 w).pop16.1 = w ∧ (s.push16 w).pop16.2.sp = s.sp ∧
    s.pop16.1.toNat = (s.memRead (s.sp + 1#16)).toNat * 256 + (s.memRead (s.sp + 2#16)).toNat

/-- D14 and R8: every content mem0 of the address space is the content of exactly one canonical memory, so a claim about
every state is a claim about every mem0. (The canonical form is the model's own: log entry 1.) -/
def Obligations.EveryMem0IsOneCanonicalMemory : Prop :=
  ∀ mem0 : Addr → Byte, ∃ m : Memory, (Memory.wf m = true ∧ ∀ a, Memory.read m a = mem0 a) ∧
    ∀ m' : Memory, Memory.wf m' = true → (∀ a, Memory.read m' a = mem0 a) → m' = m

/-- R68: a byte stored by ST, STIR, STIRP or CALL is what a later fetch of its address reads. The wrap of sp is the
spec's own choice D4 (log entry 7). -/
def Obligations.StoredBytesAreFetched : Prop :=
  (∀ (src : Reg) (o : BitVec 14) (s : State), ∃ t, exec (.st src o) s = .next t ∧
    (t.setPc (directAddr o)).fetch8.1 = s.getReg src) ∧
  (∀ (src a : Reg) (s : State), ∃ t, exec (.stir src a) s = .next t ∧
    (t.setPc (s.regIndirectAddr a)).fetch8.1 = s.getReg src) ∧
  (∀ (src : Reg) (p : Pair) (s : State), ∃ t, exec (.stirp src p) s = .next t ∧
    (t.setPc (s.pairIndirectAddr p)).fetch8.1 = s.getReg src) ∧
  (∀ (tgt : BitVec 15) (s : State), ∃ t, exec (.call tgt) s = .next t ∧
    (t.setPc s.sp).fetch8.1.toNat = s.pc.toNat % 256 ∧ (t.setPc (s.sp - 1#16)).fetch8.1.toNat = s.pc.toNat / 256)

/-! ### Data transfer -/

/-- R110. That the flags are kept is the spec's own choice D6 (log entry 6). -/
def Obligations.LdiLoadsTheImmediate : Prop :=
  (operandCount 0x02#8 = 2 ∧ ∀ b1 b2 b3, ∃ d, decodeOp 0x02#8 b1 b2 b3 = .ldi d b2 ∧ FieldIs d b1 0) ∧
  ∀ (d : Reg) (imm8 : Byte) (s : State), ∃ t, exec (.ldi d imm8) s = .next t ∧ t.getReg d = imm8 ∧
    KeepsRegs [d] s t ∧ KeepsFlags [] s t ∧ KeepsMem [] s t ∧ t.pc = s.pc ∧ KeepsRest s t

/-- R113. That the flags are kept is the spec's own choice D6 (log entry 6). -/
def Obligations.MovCopiesTheRegister : Prop :=
  (operandCount 0x05#8 = 1 ∧ ∀ b1 b2 b3, ∃ d src, decodeOp 0x05#8 b1 b2 b3 = .mov d src ∧
    FieldIs d b1 2 ∧ FieldIs src b1 0) ∧
  ∀ (d src : Reg) (s : State), ∃ t, exec (.mov d src) s = .next t ∧ t.getReg d = s.getReg src ∧
    KeepsRegs [d] s t ∧ KeepsFlags [] s t ∧ KeepsMem [] s t ∧ t.pc = s.pc ∧ KeepsRest s t

/-- R111, R114, R116: each load reads the byte at its address, formed from the old registers. That the address comes from
the old registers is the spec's own choice D18 (log entry 11), and that the flags are kept its choice D6 (log entry
6). -/
def Obligations.LoadsReadTheAddressedByte : Prop :=
  (operandCount 0x03#8 = 2 ∧ operandCount 0x0E#8 = 1 ∧ operandCount 0x10#8 = 1 ∧ ∀ b1 b2 b3,
    (∃ d o, decodeOp 0x03#8 b1 b2 b3 = .ld d o ∧ FieldIs d b1 6 ∧ OffsetIs o b1 b2) ∧
    (∃ d a, decodeOp 0x0E#8 b1 b2 b3 = .ldir d a ∧ FieldIs d b1 2 ∧ FieldIs a b1 0) ∧
    (∃ d p, decodeOp 0x10#8 b1 b2 b3 = .ldirp d p ∧ FieldIs d b1 4 ∧ PairFieldIs p b1)) ∧
  (∀ (d : Reg) (o : BitVec 14) (s : State), ∃ t, exec (.ld d o) s = .next t ∧
    t.getReg d = s.memRead (BitVec.ofNat 16 (0x8000 + o.toNat)) ∧
    KeepsRegs [d] s t ∧ KeepsFlags [] s t ∧ KeepsMem [] s t ∧ t.pc = s.pc ∧ KeepsRest s t) ∧
  (∀ (d a : Reg) (s : State), ∃ t, exec (.ldir d a) s = .next t ∧
    t.getReg d = s.memRead (BitVec.ofNat 16 (0x8000 + (s.getReg a).toNat)) ∧
    KeepsRegs [d] s t ∧ KeepsFlags [] s t ∧ KeepsMem [] s t ∧ t.pc = s.pc ∧ KeepsRest s t) ∧
  (∀ (d : Reg) (p : Pair) (s : State), ∃ t, exec (.ldirp d p) s = .next t ∧
    t.getReg d = s.memRead (BitVec.ofNat 16 (0x8000 + (s.getPair p).toNat)) ∧
    KeepsRegs [d] s t ∧ KeepsFlags [] s t ∧ KeepsMem [] s t ∧ t.pc = s.pc ∧ KeepsRest s t)

/-- R112, R115, R117: each store writes its register to the byte at its address and nothing else. That the flags are kept
is the spec's own choice D6 (log entry 6). -/
def Obligations.StoresWriteOnlyTheAddressedByte : Prop :=
  (operandCount 0x04#8 = 2 ∧ operandCount 0x0F#8 = 1 ∧ operandCount 0x11#8 = 1 ∧ ∀ b1 b2 b3,
    (∃ src o, decodeOp 0x04#8 b1 b2 b3 = .st src o ∧ FieldIs src b1 6 ∧ OffsetIs o b1 b2) ∧
    (∃ src a, decodeOp 0x0F#8 b1 b2 b3 = .stir src a ∧ FieldIs src b1 2 ∧ FieldIs a b1 0) ∧
    (∃ src p, decodeOp 0x11#8 b1 b2 b3 = .stirp src p ∧ FieldIs src b1 4 ∧ PairFieldIs p b1)) ∧
  (∀ (src : Reg) (o : BitVec 14) (s : State), ∃ t, exec (.st src o) s = .next t ∧
    (∀ a, a = directAddr o → a.toNat = 0x8000 + o.toNat ∧ t.memRead a = s.getReg src ∧ KeepsMem [a] s t) ∧
    KeepsRegs [] s t ∧ KeepsFlags [] s t ∧ t.pc = s.pc ∧ KeepsRest s t) ∧
  (∀ (src x : Reg) (s : State), ∃ t, exec (.stir src x) s = .next t ∧
    (∀ a, a = s.regIndirectAddr x → a.toNat = 0x8000 + (s.getReg x).toNat ∧ t.memRead a = s.getReg src ∧
      KeepsMem [a] s t) ∧
    KeepsRegs [] s t ∧ KeepsFlags [] s t ∧ t.pc = s.pc ∧ KeepsRest s t) ∧
  (∀ (src : Reg) (p : Pair) (s : State), ∃ t, exec (.stirp src p) s = .next t ∧
    (∀ a, a = s.pairIndirectAddr p → a.toNat = (0x8000 + (s.getPair p).toNat) % 65536 ∧
      t.memRead a = s.getReg src ∧ KeepsMem [a] s t) ∧
    KeepsRegs [] s t ∧ KeepsFlags [] s t ∧ t.pc = s.pc ∧ KeepsRest s t)

/-! ### ALU -/

/-- R136 with R131. -/
def Obligations.AddWritesSumAndFourFlags : Prop :=
  (operandCount 0x06#8 = 1 ∧ ∀ b1 b2 b3, ∃ d a b, decodeOp 0x06#8 b1 b2 b3 = .add d a b ∧
    FieldIs d b1 4 ∧ FieldIs a b1 2 ∧ FieldIs b b1 0) ∧
  ∀ (d a b : Reg) (s : State), ∃ t, exec (.add d a b) s = .next t ∧
    Sum8Spec (s.getReg a) (s.getReg b) 0 (t.getReg d) t ∧
    KeepsRegs [d] s t ∧ KeepsFlags [.carry, .zero, .negative, .overflow] s t ∧ KeepsMem [] s t ∧
    t.pc = s.pc ∧ KeepsRest s t

/-- R137 with R131: the old carry is added in. N and V from the sum with the carry in it are the spec's own choice D8 (log
entry 10). -/
def Obligations.AdcAddsTheOldCarry : Prop :=
  (operandCount 0x07#8 = 1 ∧ ∀ b1 b2 b3, ∃ d a b, decodeOp 0x07#8 b1 b2 b3 = .adc d a b ∧
    FieldIs d b1 4 ∧ FieldIs a b1 2 ∧ FieldIs b b1 0) ∧
  ∀ (d a b : Reg) (s : State), ∃ t, exec (.adc d a b) s = .next t ∧
    Sum8Spec (s.getReg a) (s.getReg b) (if s.flag .carry = true then 1 else 0) (t.getReg d) t ∧
    KeepsRegs [d] s t ∧ KeepsFlags [.carry, .zero, .negative, .overflow] s t ∧ KeepsMem [] s t ∧
    t.pc = s.pc ∧ KeepsRest s t

/-- R141 with R131: the carry is not added in. -/
def Obligations.AddiAddsTheImmediate : Prop :=
  (operandCount 0x13#8 = 2 ∧ ∀ b1 b2 b3, ∃ d, decodeOp 0x13#8 b1 b2 b3 = .addi d b2 ∧ FieldIs d b1 0) ∧
  ∀ (d : Reg) (imm8 : Byte) (s : State), ∃ t, exec (.addi d imm8) s = .next t ∧
    Sum8Spec (s.getReg d) imm8 0 (t.getReg d) t ∧
    KeepsRegs [d] s t ∧ KeepsFlags [.carry, .zero, .negative, .overflow] s t ∧ KeepsMem [] s t ∧
    t.pc = s.pc ∧ KeepsRest s t

/-- R140 with R134: the pair, C, Z and N; V is kept. N as bit 15 is the spec's own reading D9 (log entry 10). -/
def Obligations.AddiwAddsToThePair : Prop :=
  (operandCount 0x12#8 = 3 ∧ ∀ b1 b2 b3, ∃ p imm16, decodeOp 0x12#8 b1 b2 b3 = .addiw p imm16 ∧
    PairFieldIs p b1 ∧ imm16.toNat = b2.toNat * 256 + b3.toNat) ∧
  ∀ (p : Pair) (imm16 : Word) (s : State), ∃ t, exec (.addiw p imm16) s = .next t ∧
    (t.getPair p).toNat = ((s.getPair p).toNat + imm16.toNat) % 65536 ∧
    (t.flag .carry = true ↔ 0xFFFF < (s.getPair p).toNat + imm16.toNat) ∧
    (t.flag .zero = true ↔ (t.getPair p).toNat = 0) ∧
    (t.flag .negative = true ↔ 0x8000 ≤ (t.getPair p).toNat) ∧
    KeepsRegs [pairHi p, pairLo p] s t ∧ KeepsFlags [.carry, .zero, .negative] s t ∧ KeepsMem [] s t ∧
    t.pc = s.pc ∧ KeepsRest s t

/-- R138, R142, R144 with R132: bit by bit, Z and N; C and V are kept. The destination B1[5:4] is the spec's own
choice D7 (log entry 8). -/
def Obligations.LogicInstructionsWorkBitwise : Prop :=
  (operandCount 0x08#8 = 1 ∧ operandCount 0x16#8 = 1 ∧ operandCount 0x18#8 = 1 ∧
    ∀ b1 b2 b3, ∃ d a b, FieldIs d b1 4 ∧ FieldIs a b1 2 ∧ FieldIs b b1 0 ∧
      decodeOp 0x08#8 b1 b2 b3 = .and d a b ∧ decodeOp 0x16#8 b1 b2 b3 = .or d a b ∧
      decodeOp 0x18#8 b1 b2 b3 = .xor d a b) ∧
  ∀ (d a b : Reg) (s : State), ∃ t u v,
    exec (.and d a b) s = .next t ∧ exec (.or d a b) s = .next u ∧ exec (.xor d a b) s = .next v ∧
    (∀ k, k < 8 →
      (t.getReg d).getLsbD k = ((s.getReg a).getLsbD k && (s.getReg b).getLsbD k) ∧
      (u.getReg d).getLsbD k = ((s.getReg a).getLsbD k || (s.getReg b).getLsbD k) ∧
      (v.getReg d).getLsbD k = ((s.getReg a).getLsbD k != (s.getReg b).getLsbD k)) ∧
    ∀ w ∈ [t, u, v], ZNSpec (w.getReg d) w ∧ KeepsRegs [d] s w ∧ KeepsFlags [.zero, .negative] s w ∧
      KeepsMem [] s w ∧ w.pc = s.pc ∧ KeepsRest s w

/-- R143: complement of the source divided by 4; Z is always cleared and N always set. The zero-filling shift is the
spec's own choice D5 (log entry 10). -/
def Obligations.NotComplementsTheShiftedSource : Prop :=
  (operandCount 0x17#8 = 1 ∧ ∀ b1 b2 b3, ∃ d src, decodeOp 0x17#8 b1 b2 b3 = .not d src ∧
    FieldIs d b1 4 ∧ FieldIs src b1 0) ∧
  ∀ (d src : Reg) (s : State), ∃ t, exec (.not d src) s = .next t ∧
    (t.getReg d).toNat = 255 - (s.getReg src).toNat / 4 ∧ t.flag .zero = false ∧ t.flag .negative = true ∧
    KeepsRegs [d] s t ∧ KeepsFlags [.zero, .negative] s t ∧ KeepsMem [] s t ∧ t.pc = s.pc ∧ KeepsRest s t

/-- R139 with R133: Z and N of the wrapped difference; no register, C and V kept. -/
def Obligations.CpiSetsOnlyZeroAndNegative : Prop :=
  (operandCount 0x0B#8 = 2 ∧ ∀ b1 b2 b3, ∃ r, decodeOp 0x0B#8 b1 b2 b3 = .cpi r b2 ∧ FieldIs r b1 0) ∧
  ∀ (r : Reg) (imm8 : Byte) (s : State), ∃ t, exec (.cpi r imm8) s = .next t ∧
    (t.flag .zero = true ↔ s.getReg r = imm8) ∧
    (t.flag .negative = true ↔ 128 ≤ ((s.getReg r).toNat + 256 - imm8.toNat) % 256) ∧
    KeepsRegs [] s t ∧ KeepsFlags [.zero, .negative] s t ∧ KeepsMem [] s t ∧ t.pc = s.pc ∧ KeepsRest s t

/-- R135: the laws of the 8-bit sum. The clauses on N and V with a carry rest on the spec's own choice D8 (log entry 10). -/
def Obligations.AddLawsHold : Prop :=
  (∀ (a b : Byte) (c : Bool), add8 a b c = add8 b a c) ∧
  (∀ a b : Byte, b.toNat ≤ 0xFE → (add8 a b true).r = (add8 a (b + 1#8) false).r ∧
    (add8 a b true).c = (add8 a (b + 1#8) false).c ∧ (add8 a b true).z = (add8 a (b + 1#8) false).z) ∧
  (∀ a : Byte, (add8 a 0xFF#8 true).r = a ∧ (add8 a 0xFF#8 true).c = true ∧
    (add8 a 0x00#8 false).r = a ∧ (add8 a 0x00#8 false).c = false) ∧
  (∀ a b : Byte, (add8 a b true).n = (add8 a (b + 1#8) false).n ∧
    ((add8 a b true).v ≠ (add8 a (b + 1#8) false).v ↔ b = 0x7F#8)) ∧
  (∀ (a b : Byte) (c : Bool), (add8 a b c).v = true →
    (128 ≤ a.toNat ∧ 128 ≤ b.toNat ∧ (add8 a b c).c = true ∧ (add8 a b c).n = false) ∨
    (a.toNat < 128 ∧ b.toNat < 128 ∧ (add8 a b c).c = false ∧ (add8 a b c).n = true))

/-- R139's reading of N for BLT and BGT: within a true difference of -128 to 127, BLT is "less than" and BGT its opposite;
outside they are swapped; under the unsigned reading and under the signed one. -/
def Obligations.CompareThenBranchMeansLessThanInBand : Prop :=
  ∀ (r : Reg) (imm8 : Byte) (tgt : BitVec 15) (s : State), ∃ t lt gt,
    exec (.cpi r imm8) s = .next t ∧ exec (.blt tgt) t = .next lt ∧ exec (.bgt tgt) t = .next gt ∧
    ((s.getReg r).toNat ≤ imm8.toNat + 127 ∧ imm8.toNat ≤ (s.getReg r).toNat + 128 →
      (lt.pc = if (s.getReg r).toNat < imm8.toNat then targetAddr tgt else s.pc) ∧
      (gt.pc = if (s.getReg r).toNat < imm8.toNat then s.pc else targetAddr tgt)) ∧
    (¬((s.getReg r).toNat ≤ imm8.toNat + 127 ∧ imm8.toNat ≤ (s.getReg r).toNat + 128) →
      (lt.pc = if (s.getReg r).toNat < imm8.toNat then s.pc else targetAddr tgt) ∧
      (gt.pc = if (s.getReg r).toNat < imm8.toNat then targetAddr tgt else s.pc)) ∧
    (-128 ≤ (s.getReg r).toInt - imm8.toInt ∧ (s.getReg r).toInt - imm8.toInt ≤ 127 →
      (lt.pc = if (s.getReg r).toInt < imm8.toInt then targetAddr tgt else s.pc) ∧
      (gt.pc = if (s.getReg r).toInt < imm8.toInt then s.pc else targetAddr tgt)) ∧
    (¬(-128 ≤ (s.getReg r).toInt - imm8.toInt ∧ (s.getReg r).toInt - imm8.toInt ≤ 127) →
      (lt.pc = if (s.getReg r).toInt < imm8.toInt then s.pc else targetAddr tgt) ∧
      (gt.pc = if (s.getReg r).toInt < imm8.toInt then targetAddr tgt else s.pc))

/-! ### Control transfer -/

/-- R160. -/
def Obligations.JmpLoadsTheTarget : Prop :=
  (operandCount 0x09#8 = 2 ∧ ∀ b1 b2 b3, ∃ tgt, decodeOp 0x09#8 b1 b2 b3 = .jmp tgt ∧ TargetIs tgt b1 b2) ∧
  ∀ (tgt : BitVec 15) (s : State), ∃ t, exec (.jmp tgt) s = .next t ∧ t.pc.toNat = tgt.toNat ∧
    KeepsRegs [] s t ∧ KeepsFlags [] s t ∧ KeepsMem [] s t ∧ KeepsRest s t

/-- R161, R162, R163: the condition of each branch, and that a branch not taken leaves pc after its operands. That both
target bytes are fetched by a branch not taken is the spec's own choice D25 (log entry 8). -/
def Obligations.BranchesTestTheirFlag : Prop :=
  (operandCount 0x0C#8 = 2 ∧ operandCount 0x0D#8 = 2 ∧ operandCount 0x19#8 = 2 ∧
    ∀ b1 b2 b3, ∃ tgt, TargetIs tgt b1 b2 ∧ decodeOp 0x0C#8 b1 b2 b3 = .beq tgt ∧
      decodeOp 0x0D#8 b1 b2 b3 = .bgt tgt ∧ decodeOp 0x19#8 b1 b2 b3 = .blt tgt) ∧
  ∀ (tgt : BitVec 15) (s : State), ∃ eq gt lt,
    exec (.beq tgt) s = .next eq ∧ exec (.bgt tgt) s = .next gt ∧ exec (.blt tgt) s = .next lt ∧
    (eq.pc.toNat = if s.flag .zero = true then tgt.toNat else s.pc.toNat) ∧
    (gt.pc.toNat = if s.flag .negative = true then s.pc.toNat else tgt.toNat) ∧
    (lt.pc.toNat = if s.flag .negative = true then tgt.toNat else s.pc.toNat) ∧
    ∀ t ∈ [eq, gt, lt], KeepsRegs [] s t ∧ KeepsFlags [] s t ∧ KeepsMem [] s t ∧ KeepsRest s t

/-- R164: the address after the operands goes to sp (low byte) and sp - 1 (high byte), sp falls by 2, pc is the target.
The wrap of sp is the spec's own choice D4, and the order of the push its resolution C1 (log entry 7). -/
def Obligations.CallPushesTheReturnAddress : Prop :=
  (operandCount 0x20#8 = 2 ∧ ∀ b1 b2 b3, ∃ tgt, decodeOp 0x20#8 b1 b2 b3 = .call tgt ∧ TargetIs tgt b1 b2) ∧
  ∀ (tgt : BitVec 15) (s : State), ∃ t, exec (.call tgt) s = .next t ∧
    t.pc.toNat = tgt.toNat ∧ t.sp.toNat = (s.sp.toNat + 65534) % 65536 ∧
    (∀ a, a = s.sp → (t.memRead a).toNat = s.pc.toNat % 256) ∧
    (∀ a, a = s.sp - 1#16 → (t.memRead a).toNat = s.pc.toNat / 256) ∧
    KeepsMem [s.sp, s.sp - 1#16] s t ∧ KeepsRegs [] s t ∧ KeepsFlags [] s t ∧ t.halted = s.halted ∧
    KeepsPorts s t ∧ KeepsScratch s t

/-- R165: the high byte is popped first, then the low byte, at every sp. The wrap of sp is the spec's own choice D4 (log
entry 7). -/
def Obligations.RetPopsTheReturnAddress : Prop :=
  (operandCount 0x21#8 = 0 ∧ ∀ b1 b2 b3, decodeOp 0x21#8 b1 b2 b3 = .ret) ∧
  ∀ s : State, ∃ t, exec .ret s = .next t ∧
    t.pc.toNat = (s.memRead (s.sp + 1#16)).toNat * 256 + (s.memRead (s.sp + 2#16)).toNat ∧
    t.sp.toNat = (s.sp.toNat + 2) % 65536 ∧
    KeepsMem [] s t ∧ KeepsRegs [] s t ∧ KeepsFlags [] s t ∧ t.halted = s.halted ∧
    KeepsPorts s t ∧ KeepsScratch s t

/-- A subroutine that gives sp and the two stack bytes back returns to the instruction after the CALL (R164, R165; source
example W3), at every sp. The wrap of sp is the spec's own choice D4 (log entry 7). -/
def Obligations.CallThenRetReturns : Prop :=
  ∀ (tgt : BitVec 15) (s c r : State), exec (.call tgt) s = .next c → r.sp = c.sp →
    r.memRead (c.sp + 1#16) = c.memRead (c.sp + 1#16) → r.memRead (c.sp + 2#16) = c.memRead (c.sp + 2#16) →
    ∃ t, exec .ret r = .next t ∧ t.pc = s.pc ∧ t.sp = s.sp

/-! ### Output -/

/-- R180, R181, R182: the event each instruction sends, how the sink shows it, and that nothing else changes. The shown
text (unsigned digits, one newline) is the model's choice of the sink's rendering (log entry 9; D13). -/
def Obligations.OutputInstructionsSendOneEvent : Prop :=
  (operandCount 0x0A#8 = 1 ∧ operandCount 0x14#8 = 1 ∧ operandCount 0x15#8 = 1 ∧ ∀ b1 b2 b3,
    (∃ r, FieldIs r b1 0 ∧ decodeOp 0x0A#8 b1 b2 b3 = .out r ∧ decodeOp 0x15#8 b1 b2 b3 = .outa r) ∧
    ∃ p, PairFieldIs p b1 ∧ decodeOp 0x14#8 b1 b2 b3 = .outp p) ∧
  (∀ (r : Reg) (p : Pair) (s : State), ∃ t u v,
    exec (.out r) s = .next t ∧ exec (.outp p) s = .next u ∧ exec (.outa r) s = .next v ∧
    t.out = s.out ++ [.dec8 (s.getReg r)] ∧ u.out = s.out ++ [.dec16 (s.getPair p)] ∧
    v.out = s.out ++ [.char (s.getReg r)] ∧
    t.shownText = s.shownText ++ Nat.toDigits 10 (s.getReg r).toNat ++ ['\n'] ∧
    u.shownText = s.shownText ++ Nat.toDigits 10 (s.getPair p).toNat ++ ['\n'] ∧
    (∃ c, v.shownText = s.shownText ++ [c]) ∧
    ∀ w ∈ [t, u, v], KeepsRegs [] s w ∧ KeepsFlags [] s w ∧ KeepsMem [] s w ∧ w.pc = s.pc ∧ w.sp = s.sp ∧
      w.halted = s.halted ∧ w.diag = s.diag ∧ KeepsScratch s w)

/-! ### Whole-machine rules, over every Step -/

/-- R29: every instruction but the control transfers leaves pc at A + L, modulo 2^16. The wrap of pc is the spec's own
choice D3 (log entry 7), and that an unrecognized opcode has length 1 its choice D12 (log entry 8). -/
def Obligations.PcEndsAfterTheInstruction : Prop :=
  ∀ s : State, s.halted = false → ∃ t, step s = .next t ∧
    (s.memRead s.pc ∉ [0x09#8, 0x0C#8, 0x0D#8, 0x19#8, 0x20#8, 0x21#8] →
      t.pc.toNat = (s.pc.toNat + (operandCount (s.memRead s.pc) + 1)) % 65536) ∧
    (s.memRead s.pc ∈ [0x09#8, 0x20#8] → t.pc.toNat < 0x8000)

/-- R36: sp changes by CALL and RET alone. The wrap of sp is the spec's own choice D4 (log entry 7). -/
def Obligations.OnlyCallAndRetMoveSp : Prop :=
  ∀ s : State, s.halted = false → ∃ t, step s = .next t ∧
    (s.memRead s.pc = 0x20#8 → t.sp.toNat = (s.sp.toNat + 65534) % 65536) ∧
    (s.memRead s.pc = 0x21#8 → t.sp.toNat = (s.sp.toNat + 2) % 65536) ∧
    (s.memRead s.pc ≠ 0x20#8 → s.memRead s.pc ≠ 0x21#8 → t.sp = s.sp)

/-- R33, R34, D6: which opcodes may change which flag; I and bits 7:5 are never written. That a flag not named is kept
and bits 7:5 are never written are the spec's own choices D6 and D10 (log entry 6). -/
def Obligations.FlagsAreWrittenOnlyByTheirInstructions : Prop :=
  ∀ s : State, s.halted = false → ∃ t, step s = .next t ∧
    (s.memRead s.pc ∉ [0x06#8, 0x07#8, 0x12#8, 0x13#8] → t.flag .carry = s.flag .carry) ∧
    (s.memRead s.pc ∉ [0x06#8, 0x07#8, 0x08#8, 0x0B#8, 0x12#8, 0x13#8, 0x16#8, 0x17#8, 0x18#8] →
      t.flag .zero = s.flag .zero ∧ t.flag .negative = s.flag .negative) ∧
    (s.memRead s.pc ∉ [0x06#8, 0x07#8, 0x13#8] → t.flag .overflow = s.flag .overflow) ∧
    t.flag .interruptDisable = s.flag .interruptDisable ∧ t.f &&& 0xE0#8 = s.f &&& 0xE0#8

/-- R24: the opcodes that write no register. -/
def Obligations.RegistersAreWrittenOnlyByTheirInstructions : Prop :=
  ∀ s : State, s.halted = false → ∃ t, step s = .next t ∧
    (s.memRead s.pc ∉ [0x02#8, 0x03#8, 0x05#8, 0x06#8, 0x07#8, 0x08#8, 0x0E#8, 0x10#8, 0x12#8, 0x13#8, 0x16#8, 0x17#8,
      0x18#8] → KeepsRegs [] s t)

/-- R55: the opcodes that write no memory, and those that send no event. -/
def Obligations.MemoryAndOutputChangeOnlyByTheirInstructions : Prop :=
  ∀ s : State, s.halted = false → ∃ t, step s = .next t ∧
    (s.memRead s.pc ∉ [0x04#8, 0x0F#8, 0x11#8, 0x20#8] → KeepsMem [] s t) ∧
    (s.memRead s.pc ∉ [0x0A#8, 0x14#8, 0x15#8] → t.out = s.out) ∧
    (s.memRead s.pc ∈ [0x0A#8, 0x14#8, 0x15#8] → ∃ e, t.out = s.out ++ [e])

/-- The invariant holds at reset, after the reset input, and at every launch over a canonical mem0. (The canonical form
is the model's own.) -/
def Obligations.InvariantHoldsAtReset : Prop :=
  Inv State.reset ∧
  (∀ s : State, Memory.wf s.mem = true → ∃ t, drive .reset s = .next t ∧ Inv t) ∧
  ∀ (mem0 : Memory) (program : List Byte), Memory.wf mem0 = true → program.length ≤ 65536 →
    ∃ t, boot mem0 program = .next t ∧ Inv t

/-- Every Step keeps the invariant: canonical memory (the model's own form), and I and bits 7:5 of F at 0 (R33, R35).
That bits 7:5 are never written is the spec's own choice D10 (log entry 6), and the canonical form the model's (log entry
1). -/
def Obligations.EveryStepKeepsTheInvariant : Prop :=
  ∀ s t : State, Inv s → step s = .next t → Inv t

/-- R33: no instruction can observe V, I or bits 7:5 of F. That nothing reads bits 7:5 is the spec's own choice D10 (log
entry 6). -/
def Obligations.UnreadFlagBitsAreUnobservable : Prop :=
  ∀ (s : State) (g : Byte), s.halted = false → g &&& 0x0B#8 = s.f &&& 0x0B#8 →
    ∃ (t : State) (h : Byte), step s = .next t ∧ step { s with f := g } = .next { t with f := h } ∧
      h &&& 0x0B#8 = t.f &&& 0x0B#8

/-- R43: no Step can observe the decode scratch. What a Step leaves in it is the model's free value (log entry 3). -/
def Obligations.ScratchIsUnobservable : Prop :=
  ∀ (s : State) (h l : Byte) (m : Word), step { s with mdrh := h, mdrl := l, mar := m } = step s

/-- R11, R12: what was sent stays sent and nothing sent is ever read, so a Step is the same whatever was sent before. The
histories are how the model holds the ports (log entry 4). -/
def Obligations.SentEventsAreUnobservable : Prop :=
  ∀ (s : State) (o : List OutEvent) (g : List DiagEvent), s.halted = false →
    ∃ (t : State) (o' : List OutEvent) (g' : List DiagEvent), step s = .next t ∧
      t.out = s.out ++ o' ∧ t.diag = s.diag ++ g' ∧
      step { s with out := o, diag := g } = .next { t with out := o ++ o', diag := g ++ g' }
end

