-- ==== Sys2Proof/Laws/State.lean ====
section
/-! SUPPORT. One lemma for each field of State under each named operation, all true by definition, so that no later proof
unfolds a record update. -/

namespace Sys2Proof.Machine

variable (s : State)

/-! ### setReg -/

@[simp] theorem State.setReg_regs (r : Reg) (v : Byte) : (s.setReg r v).regs = s.regs.set r v := rfl
@[simp] theorem State.setReg_f (r : Reg) (v : Byte) : (s.setReg r v).f = s.f := rfl
@[simp] theorem State.setReg_pc (r : Reg) (v : Byte) : (s.setReg r v).pc = s.pc := rfl
@[simp] theorem State.setReg_sp (r : Reg) (v : Byte) : (s.setReg r v).sp = s.sp := rfl
@[simp] theorem State.setReg_halted (r : Reg) (v : Byte) : (s.setReg r v).halted = s.halted := rfl
@[simp] theorem State.setReg_mdrh (r : Reg) (v : Byte) : (s.setReg r v).mdrh = s.mdrh := rfl
@[simp] theorem State.setReg_mdrl (r : Reg) (v : Byte) : (s.setReg r v).mdrl = s.mdrl := rfl
@[simp] theorem State.setReg_mar (r : Reg) (v : Byte) : (s.setReg r v).mar = s.mar := rfl
@[simp] theorem State.setReg_mem (r : Reg) (v : Byte) : (s.setReg r v).mem = s.mem := rfl
@[simp] theorem State.setReg_out (r : Reg) (v : Byte) : (s.setReg r v).out = s.out := rfl
@[simp] theorem State.setReg_diag (r : Reg) (v : Byte) : (s.setReg r v).diag = s.diag := rfl
@[simp] theorem State.setReg_scratchTick (r : Reg) (v : Byte) : (s.setReg r v).scratchTick = s.scratchTick := rfl

/-! ### setPair -/

@[simp] theorem State.setPair_regs (p : Pair) (v : Word) :
    (s.setPair p v).regs = (s.regs.set (pairHi p) (hiByte v)).set (pairLo p) (loByte v) := rfl
@[simp] theorem State.setPair_f (p : Pair) (v : Word) : (s.setPair p v).f = s.f := rfl
@[simp] theorem State.setPair_pc (p : Pair) (v : Word) : (s.setPair p v).pc = s.pc := rfl
@[simp] theorem State.setPair_sp (p : Pair) (v : Word) : (s.setPair p v).sp = s.sp := rfl
@[simp] theorem State.setPair_halted (p : Pair) (v : Word) : (s.setPair p v).halted = s.halted := rfl
@[simp] theorem State.setPair_mdrh (p : Pair) (v : Word) : (s.setPair p v).mdrh = s.mdrh := rfl
@[simp] theorem State.setPair_mdrl (p : Pair) (v : Word) : (s.setPair p v).mdrl = s.mdrl := rfl
@[simp] theorem State.setPair_mar (p : Pair) (v : Word) : (s.setPair p v).mar = s.mar := rfl
@[simp] theorem State.setPair_mem (p : Pair) (v : Word) : (s.setPair p v).mem = s.mem := rfl
@[simp] theorem State.setPair_out (p : Pair) (v : Word) : (s.setPair p v).out = s.out := rfl
@[simp] theorem State.setPair_diag (p : Pair) (v : Word) : (s.setPair p v).diag = s.diag := rfl
@[simp] theorem State.setPair_scratchTick (p : Pair) (v : Word) : (s.setPair p v).scratchTick = s.scratchTick := rfl

/-! ### setPc -/

@[simp] theorem State.setPc_regs (v : Word) : (s.setPc v).regs = s.regs := rfl
@[simp] theorem State.setPc_f (v : Word) : (s.setPc v).f = s.f := rfl
@[simp] theorem State.setPc_pc (v : Word) : (s.setPc v).pc = v := rfl
@[simp] theorem State.setPc_sp (v : Word) : (s.setPc v).sp = s.sp := rfl
@[simp] theorem State.setPc_halted (v : Word) : (s.setPc v).halted = s.halted := rfl
@[simp] theorem State.setPc_mdrh (v : Word) : (s.setPc v).mdrh = s.mdrh := rfl
@[simp] theorem State.setPc_mdrl (v : Word) : (s.setPc v).mdrl = s.mdrl := rfl
@[simp] theorem State.setPc_mar (v : Word) : (s.setPc v).mar = s.mar := rfl
@[simp] theorem State.setPc_mem (v : Word) : (s.setPc v).mem = s.mem := rfl
@[simp] theorem State.setPc_out (v : Word) : (s.setPc v).out = s.out := rfl
@[simp] theorem State.setPc_diag (v : Word) : (s.setPc v).diag = s.diag := rfl
@[simp] theorem State.setPc_scratchTick (v : Word) : (s.setPc v).scratchTick = s.scratchTick := rfl

/-! ### memWrite -/

@[simp] theorem State.memWrite_regs (a : Addr) (v : Byte) : (s.memWrite a v).regs = s.regs := rfl
@[simp] theorem State.memWrite_f (a : Addr) (v : Byte) : (s.memWrite a v).f = s.f := rfl
@[simp] theorem State.memWrite_pc (a : Addr) (v : Byte) : (s.memWrite a v).pc = s.pc := rfl
@[simp] theorem State.memWrite_sp (a : Addr) (v : Byte) : (s.memWrite a v).sp = s.sp := rfl
@[simp] theorem State.memWrite_halted (a : Addr) (v : Byte) : (s.memWrite a v).halted = s.halted := rfl
@[simp] theorem State.memWrite_mdrh (a : Addr) (v : Byte) : (s.memWrite a v).mdrh = s.mdrh := rfl
@[simp] theorem State.memWrite_mdrl (a : Addr) (v : Byte) : (s.memWrite a v).mdrl = s.mdrl := rfl
@[simp] theorem State.memWrite_mar (a : Addr) (v : Byte) : (s.memWrite a v).mar = s.mar := rfl
@[simp] theorem State.memWrite_mem (a : Addr) (v : Byte) : (s.memWrite a v).mem = Memory.write s.mem a v := rfl
@[simp] theorem State.memWrite_out (a : Addr) (v : Byte) : (s.memWrite a v).out = s.out := rfl
@[simp] theorem State.memWrite_diag (a : Addr) (v : Byte) : (s.memWrite a v).diag = s.diag := rfl
@[simp] theorem State.memWrite_scratchTick (a : Addr) (v : Byte) : (s.memWrite a v).scratchTick = s.scratchTick := rfl

/-! ### push8 -/

@[simp] theorem State.push8_regs (v : Byte) : (s.push8 v).regs = s.regs := rfl
@[simp] theorem State.push8_f (v : Byte) : (s.push8 v).f = s.f := rfl
@[simp] theorem State.push8_pc (v : Byte) : (s.push8 v).pc = s.pc := rfl
@[simp] theorem State.push8_sp (v : Byte) : (s.push8 v).sp = s.sp - 1#16 := rfl
@[simp] theorem State.push8_halted (v : Byte) : (s.push8 v).halted = s.halted := rfl
@[simp] theorem State.push8_mdrh (v : Byte) : (s.push8 v).mdrh = s.mdrh := rfl
@[simp] theorem State.push8_mdrl (v : Byte) : (s.push8 v).mdrl = s.mdrl := rfl
@[simp] theorem State.push8_mar (v : Byte) : (s.push8 v).mar = s.mar := rfl
@[simp] theorem State.push8_mem (v : Byte) : (s.push8 v).mem = Memory.write s.mem s.sp v := rfl
@[simp] theorem State.push8_out (v : Byte) : (s.push8 v).out = s.out := rfl
@[simp] theorem State.push8_diag (v : Byte) : (s.push8 v).diag = s.diag := rfl
@[simp] theorem State.push8_scratchTick (v : Byte) : (s.push8 v).scratchTick = s.scratchTick := rfl

/-! ### emit -/

@[simp] theorem State.emit_regs (e : OutEvent) : (s.emit e).regs = s.regs := rfl
@[simp] theorem State.emit_f (e : OutEvent) : (s.emit e).f = s.f := rfl
@[simp] theorem State.emit_pc (e : OutEvent) : (s.emit e).pc = s.pc := rfl
@[simp] theorem State.emit_sp (e : OutEvent) : (s.emit e).sp = s.sp := rfl
@[simp] theorem State.emit_halted (e : OutEvent) : (s.emit e).halted = s.halted := rfl
@[simp] theorem State.emit_mdrh (e : OutEvent) : (s.emit e).mdrh = s.mdrh := rfl
@[simp] theorem State.emit_mdrl (e : OutEvent) : (s.emit e).mdrl = s.mdrl := rfl
@[simp] theorem State.emit_mar (e : OutEvent) : (s.emit e).mar = s.mar := rfl
@[simp] theorem State.emit_mem (e : OutEvent) : (s.emit e).mem = s.mem := rfl
@[simp] theorem State.emit_out (e : OutEvent) : (s.emit e).out = s.out ++ [e] := rfl
@[simp] theorem State.emit_diag (e : OutEvent) : (s.emit e).diag = s.diag := rfl
@[simp] theorem State.emit_scratchTick (e : OutEvent) : (s.emit e).scratchTick = s.scratchTick := rfl

/-! ### diagnose -/

@[simp] theorem State.diagnose_regs (e : DiagEvent) : (s.diagnose e).regs = s.regs := rfl
@[simp] theorem State.diagnose_f (e : DiagEvent) : (s.diagnose e).f = s.f := rfl
@[simp] theorem State.diagnose_pc (e : DiagEvent) : (s.diagnose e).pc = s.pc := rfl
@[simp] theorem State.diagnose_sp (e : DiagEvent) : (s.diagnose e).sp = s.sp := rfl
@[simp] theorem State.diagnose_halted (e : DiagEvent) : (s.diagnose e).halted = s.halted := rfl
@[simp] theorem State.diagnose_mdrh (e : DiagEvent) : (s.diagnose e).mdrh = s.mdrh := rfl
@[simp] theorem State.diagnose_mdrl (e : DiagEvent) : (s.diagnose e).mdrl = s.mdrl := rfl
@[simp] theorem State.diagnose_mar (e : DiagEvent) : (s.diagnose e).mar = s.mar := rfl
@[simp] theorem State.diagnose_mem (e : DiagEvent) : (s.diagnose e).mem = s.mem := rfl
@[simp] theorem State.diagnose_out (e : DiagEvent) : (s.diagnose e).out = s.out := rfl
@[simp] theorem State.diagnose_diag (e : DiagEvent) : (s.diagnose e).diag = s.diag ++ [e] := rfl
@[simp] theorem State.diagnose_scratchTick (e : DiagEvent) : (s.diagnose e).scratchTick = s.scratchTick := rfl

/-! ### halt -/

@[simp] theorem State.halt_regs : (s.halt).regs = s.regs := rfl
@[simp] theorem State.halt_f : (s.halt).f = s.f := rfl
@[simp] theorem State.halt_pc : (s.halt).pc = s.pc := rfl
@[simp] theorem State.halt_sp : (s.halt).sp = s.sp := rfl
@[simp] theorem State.halt_halted : (s.halt).halted = true := rfl
@[simp] theorem State.halt_mdrh : (s.halt).mdrh = s.mdrh := rfl
@[simp] theorem State.halt_mdrl : (s.halt).mdrl = s.mdrl := rfl
@[simp] theorem State.halt_mar : (s.halt).mar = s.mar := rfl
@[simp] theorem State.halt_mem : (s.halt).mem = s.mem := rfl
@[simp] theorem State.halt_out : (s.halt).out = s.out := rfl
@[simp] theorem State.halt_diag : (s.halt).diag = s.diag := rfl
@[simp] theorem State.halt_scratchTick : (s.halt).scratchTick = s.scratchTick := rfl

/-! ### unknownOpcode -/

@[simp] theorem State.unknownOpcode_regs (op : Byte) : (s.unknownOpcode op).regs = s.regs := rfl
@[simp] theorem State.unknownOpcode_f (op : Byte) : (s.unknownOpcode op).f = s.f := rfl
@[simp] theorem State.unknownOpcode_pc (op : Byte) : (s.unknownOpcode op).pc = s.pc := rfl
@[simp] theorem State.unknownOpcode_sp (op : Byte) : (s.unknownOpcode op).sp = s.sp := rfl
@[simp] theorem State.unknownOpcode_halted (op : Byte) : (s.unknownOpcode op).halted = true := rfl
@[simp] theorem State.unknownOpcode_mdrh (op : Byte) : (s.unknownOpcode op).mdrh = s.mdrh := rfl
@[simp] theorem State.unknownOpcode_mdrl (op : Byte) : (s.unknownOpcode op).mdrl = s.mdrl := rfl
@[simp] theorem State.unknownOpcode_mar (op : Byte) : (s.unknownOpcode op).mar = s.mar := rfl
@[simp] theorem State.unknownOpcode_mem (op : Byte) : (s.unknownOpcode op).mem = s.mem := rfl
@[simp] theorem State.unknownOpcode_out (op : Byte) : (s.unknownOpcode op).out = s.out := rfl
@[simp] theorem State.unknownOpcode_diag (op : Byte) : (s.unknownOpcode op).diag = s.diag ++ [.unknownOpcode op] := rfl
@[simp] theorem State.unknownOpcode_scratchTick (op : Byte) : (s.unknownOpcode op).scratchTick = s.scratchTick := rfl

/-! ### setFlag -/

@[simp] theorem State.setFlag_regs (g : Flag) (b : Bool) : (s.setFlag g b).regs = s.regs := rfl
@[simp] theorem State.setFlag_f (g : Flag) (b : Bool) : (s.setFlag g b).f = flagSet s.f g b := rfl
@[simp] theorem State.setFlag_pc (g : Flag) (b : Bool) : (s.setFlag g b).pc = s.pc := rfl
@[simp] theorem State.setFlag_sp (g : Flag) (b : Bool) : (s.setFlag g b).sp = s.sp := rfl
@[simp] theorem State.setFlag_halted (g : Flag) (b : Bool) : (s.setFlag g b).halted = s.halted := rfl
@[simp] theorem State.setFlag_mdrh (g : Flag) (b : Bool) : (s.setFlag g b).mdrh = s.mdrh := rfl
@[simp] theorem State.setFlag_mdrl (g : Flag) (b : Bool) : (s.setFlag g b).mdrl = s.mdrl := rfl
@[simp] theorem State.setFlag_mar (g : Flag) (b : Bool) : (s.setFlag g b).mar = s.mar := rfl
@[simp] theorem State.setFlag_mem (g : Flag) (b : Bool) : (s.setFlag g b).mem = s.mem := rfl
@[simp] theorem State.setFlag_out (g : Flag) (b : Bool) : (s.setFlag g b).out = s.out := rfl
@[simp] theorem State.setFlag_diag (g : Flag) (b : Bool) : (s.setFlag g b).diag = s.diag := rfl
@[simp] theorem State.setFlag_scratchTick (g : Flag) (b : Bool) : (s.setFlag g b).scratchTick = s.scratchTick := rfl

/-! ### setZN -/

@[simp] theorem State.setZN_regs (z n : Bool) : (s.setZN z n).regs = s.regs := rfl
@[simp] theorem State.setZN_f (z n : Bool) : (s.setZN z n).f = flagSet (flagSet s.f .zero z) .negative n := rfl
@[simp] theorem State.setZN_pc (z n : Bool) : (s.setZN z n).pc = s.pc := rfl
@[simp] theorem State.setZN_sp (z n : Bool) : (s.setZN z n).sp = s.sp := rfl
@[simp] theorem State.setZN_halted (z n : Bool) : (s.setZN z n).halted = s.halted := rfl
@[simp] theorem State.setZN_mdrh (z n : Bool) : (s.setZN z n).mdrh = s.mdrh := rfl
@[simp] theorem State.setZN_mdrl (z n : Bool) : (s.setZN z n).mdrl = s.mdrl := rfl
@[simp] theorem State.setZN_mar (z n : Bool) : (s.setZN z n).mar = s.mar := rfl
@[simp] theorem State.setZN_mem (z n : Bool) : (s.setZN z n).mem = s.mem := rfl
@[simp] theorem State.setZN_out (z n : Bool) : (s.setZN z n).out = s.out := rfl
@[simp] theorem State.setZN_diag (z n : Bool) : (s.setZN z n).diag = s.diag := rfl
@[simp] theorem State.setZN_scratchTick (z n : Bool) : (s.setZN z n).scratchTick = s.scratchTick := rfl

/-! ### setCZN -/

@[simp] theorem State.setCZN_regs (c z n : Bool) : (s.setCZN c z n).regs = s.regs := rfl
@[simp] theorem State.setCZN_f (c z n : Bool) :
    (s.setCZN c z n).f = flagSet (flagSet (flagSet s.f .carry c) .zero z) .negative n := rfl
@[simp] theorem State.setCZN_pc (c z n : Bool) : (s.setCZN c z n).pc = s.pc := rfl
@[simp] theorem State.setCZN_sp (c z n : Bool) : (s.setCZN c z n).sp = s.sp := rfl
@[simp] theorem State.setCZN_halted (c z n : Bool) : (s.setCZN c z n).halted = s.halted := rfl
@[simp] theorem State.setCZN_mdrh (c z n : Bool) : (s.setCZN c z n).mdrh = s.mdrh := rfl
@[simp] theorem State.setCZN_mdrl (c z n : Bool) : (s.setCZN c z n).mdrl = s.mdrl := rfl
@[simp] theorem State.setCZN_mar (c z n : Bool) : (s.setCZN c z n).mar = s.mar := rfl
@[simp] theorem State.setCZN_mem (c z n : Bool) : (s.setCZN c z n).mem = s.mem := rfl
@[simp] theorem State.setCZN_out (c z n : Bool) : (s.setCZN c z n).out = s.out := rfl
@[simp] theorem State.setCZN_diag (c z n : Bool) : (s.setCZN c z n).diag = s.diag := rfl
@[simp] theorem State.setCZN_scratchTick (c z n : Bool) : (s.setCZN c z n).scratchTick = s.scratchTick := rfl

/-! ### setCZNV -/

@[simp] theorem State.setCZNV_regs (c z n v : Bool) : (s.setCZNV c z n v).regs = s.regs := rfl
@[simp] theorem State.setCZNV_f (c z n v : Bool) :
    (s.setCZNV c z n v).f = flagSet (flagSet (flagSet (flagSet s.f .carry c) .zero z) .negative n) .overflow v := rfl
@[simp] theorem State.setCZNV_pc (c z n v : Bool) : (s.setCZNV c z n v).pc = s.pc := rfl
@[simp] theorem State.setCZNV_sp (c z n v : Bool) : (s.setCZNV c z n v).sp = s.sp := rfl
@[simp] theorem State.setCZNV_halted (c z n v : Bool) : (s.setCZNV c z n v).halted = s.halted := rfl
@[simp] theorem State.setCZNV_mdrh (c z n v : Bool) : (s.setCZNV c z n v).mdrh = s.mdrh := rfl
@[simp] theorem State.setCZNV_mdrl (c z n v : Bool) : (s.setCZNV c z n v).mdrl = s.mdrl := rfl
@[simp] theorem State.setCZNV_mar (c z n v : Bool) : (s.setCZNV c z n v).mar = s.mar := rfl
@[simp] theorem State.setCZNV_mem (c z n v : Bool) : (s.setCZNV c z n v).mem = s.mem := rfl
@[simp] theorem State.setCZNV_out (c z n v : Bool) : (s.setCZNV c z n v).out = s.out := rfl
@[simp] theorem State.setCZNV_diag (c z n v : Bool) : (s.setCZNV c z n v).diag = s.diag := rfl
@[simp] theorem State.setCZNV_scratchTick (c z n v : Bool) : (s.setCZNV c z n v).scratchTick = s.scratchTick := rfl

/-! ### setLogicFlags -/

@[simp] theorem State.setLogicFlags_regs (r : Byte) : (s.setLogicFlags r).regs = s.regs := rfl
@[simp] theorem State.setLogicFlags_f (r : Byte) :
    (s.setLogicFlags r).f = flagSet (flagSet s.f .zero (r == 0#8)) .negative (r.getLsbD 7) := rfl
@[simp] theorem State.setLogicFlags_pc (r : Byte) : (s.setLogicFlags r).pc = s.pc := rfl
@[simp] theorem State.setLogicFlags_sp (r : Byte) : (s.setLogicFlags r).sp = s.sp := rfl
@[simp] theorem State.setLogicFlags_halted (r : Byte) : (s.setLogicFlags r).halted = s.halted := rfl
@[simp] theorem State.setLogicFlags_mdrh (r : Byte) : (s.setLogicFlags r).mdrh = s.mdrh := rfl
@[simp] theorem State.setLogicFlags_mdrl (r : Byte) : (s.setLogicFlags r).mdrl = s.mdrl := rfl
@[simp] theorem State.setLogicFlags_mar (r : Byte) : (s.setLogicFlags r).mar = s.mar := rfl
@[simp] theorem State.setLogicFlags_mem (r : Byte) : (s.setLogicFlags r).mem = s.mem := rfl
@[simp] theorem State.setLogicFlags_out (r : Byte) : (s.setLogicFlags r).out = s.out := rfl
@[simp] theorem State.setLogicFlags_diag (r : Byte) : (s.setLogicFlags r).diag = s.diag := rfl
@[simp] theorem State.setLogicFlags_scratchTick (r : Byte) : (s.setLogicFlags r).scratchTick = s.scratchTick := rfl

/-! ### putSum8 -/

@[simp] theorem State.putSum8_regs (d : Reg) (q : Sum8) : (s.putSum8 d q).regs = s.regs.set d q.r := rfl
@[simp] theorem State.putSum8_f (d : Reg) (q : Sum8) :
    (s.putSum8 d q).f = flagSet (flagSet (flagSet (flagSet s.f .carry q.c) .zero q.z) .negative q.n) .overflow q.v := rfl
@[simp] theorem State.putSum8_pc (d : Reg) (q : Sum8) : (s.putSum8 d q).pc = s.pc := rfl
@[simp] theorem State.putSum8_sp (d : Reg) (q : Sum8) : (s.putSum8 d q).sp = s.sp := rfl
@[simp] theorem State.putSum8_halted (d : Reg) (q : Sum8) : (s.putSum8 d q).halted = s.halted := rfl
@[simp] theorem State.putSum8_mdrh (d : Reg) (q : Sum8) : (s.putSum8 d q).mdrh = s.mdrh := rfl
@[simp] theorem State.putSum8_mdrl (d : Reg) (q : Sum8) : (s.putSum8 d q).mdrl = s.mdrl := rfl
@[simp] theorem State.putSum8_mar (d : Reg) (q : Sum8) : (s.putSum8 d q).mar = s.mar := rfl
@[simp] theorem State.putSum8_mem (d : Reg) (q : Sum8) : (s.putSum8 d q).mem = s.mem := rfl
@[simp] theorem State.putSum8_out (d : Reg) (q : Sum8) : (s.putSum8 d q).out = s.out := rfl
@[simp] theorem State.putSum8_diag (d : Reg) (q : Sum8) : (s.putSum8 d q).diag = s.diag := rfl
@[simp] theorem State.putSum8_scratchTick (d : Reg) (q : Sum8) : (s.putSum8 d q).scratchTick = s.scratchTick := rfl

/-! ### putLogic -/

@[simp] theorem State.putLogic_regs (d : Reg) (r : Byte) : (s.putLogic d r).regs = s.regs.set d r := rfl
@[simp] theorem State.putLogic_f (d : Reg) (r : Byte) :
    (s.putLogic d r).f = flagSet (flagSet s.f .zero (r == 0#8)) .negative (r.getLsbD 7) := rfl
@[simp] theorem State.putLogic_pc (d : Reg) (r : Byte) : (s.putLogic d r).pc = s.pc := rfl
@[simp] theorem State.putLogic_sp (d : Reg) (r : Byte) : (s.putLogic d r).sp = s.sp := rfl
@[simp] theorem State.putLogic_halted (d : Reg) (r : Byte) : (s.putLogic d r).halted = s.halted := rfl
@[simp] theorem State.putLogic_mdrh (d : Reg) (r : Byte) : (s.putLogic d r).mdrh = s.mdrh := rfl
@[simp] theorem State.putLogic_mdrl (d : Reg) (r : Byte) : (s.putLogic d r).mdrl = s.mdrl := rfl
@[simp] theorem State.putLogic_mar (d : Reg) (r : Byte) : (s.putLogic d r).mar = s.mar := rfl
@[simp] theorem State.putLogic_mem (d : Reg) (r : Byte) : (s.putLogic d r).mem = s.mem := rfl
@[simp] theorem State.putLogic_out (d : Reg) (r : Byte) : (s.putLogic d r).out = s.out := rfl
@[simp] theorem State.putLogic_diag (d : Reg) (r : Byte) : (s.putLogic d r).diag = s.diag := rfl
@[simp] theorem State.putLogic_scratchTick (d : Reg) (r : Byte) : (s.putLogic d r).scratchTick = s.scratchTick := rfl

/-! ### putSum16 -/

@[simp] theorem State.putSum16_regs (p : Pair) (q : Sum16) :
    (s.putSum16 p q).regs = (s.regs.set (pairHi p) (hiByte q.r)).set (pairLo p) (loByte q.r) := rfl
@[simp] theorem State.putSum16_f (p : Pair) (q : Sum16) :
    (s.putSum16 p q).f = flagSet (flagSet (flagSet s.f .carry q.c) .zero q.z) .negative q.n := rfl
@[simp] theorem State.putSum16_pc (p : Pair) (q : Sum16) : (s.putSum16 p q).pc = s.pc := rfl
@[simp] theorem State.putSum16_sp (p : Pair) (q : Sum16) : (s.putSum16 p q).sp = s.sp := rfl
@[simp] theorem State.putSum16_halted (p : Pair) (q : Sum16) : (s.putSum16 p q).halted = s.halted := rfl
@[simp] theorem State.putSum16_mdrh (p : Pair) (q : Sum16) : (s.putSum16 p q).mdrh = s.mdrh := rfl
@[simp] theorem State.putSum16_mdrl (p : Pair) (q : Sum16) : (s.putSum16 p q).mdrl = s.mdrl := rfl
@[simp] theorem State.putSum16_mar (p : Pair) (q : Sum16) : (s.putSum16 p q).mar = s.mar := rfl
@[simp] theorem State.putSum16_mem (p : Pair) (q : Sum16) : (s.putSum16 p q).mem = s.mem := rfl
@[simp] theorem State.putSum16_out (p : Pair) (q : Sum16) : (s.putSum16 p q).out = s.out := rfl
@[simp] theorem State.putSum16_diag (p : Pair) (q : Sum16) : (s.putSum16 p q).diag = s.diag := rfl
@[simp] theorem State.putSum16_scratchTick (p : Pair) (q : Sum16) : (s.putSum16 p q).scratchTick = s.scratchTick := rfl

/-! ### push16 -/

@[simp] theorem State.push16_regs (w : Word) : (s.push16 w).regs = s.regs := rfl
@[simp] theorem State.push16_f (w : Word) : (s.push16 w).f = s.f := rfl
@[simp] theorem State.push16_pc (w : Word) : (s.push16 w).pc = s.pc := rfl
@[simp] theorem State.push16_sp (w : Word) : (s.push16 w).sp = s.sp - 1#16 - 1#16 := rfl
@[simp] theorem State.push16_halted (w : Word) : (s.push16 w).halted = s.halted := rfl
@[simp] theorem State.push16_mdrh (w : Word) : (s.push16 w).mdrh = s.mdrh := rfl
@[simp] theorem State.push16_mdrl (w : Word) : (s.push16 w).mdrl = s.mdrl := rfl
@[simp] theorem State.push16_mar (w : Word) : (s.push16 w).mar = s.mar := rfl
@[simp] theorem State.push16_mem (w : Word) :
    (s.push16 w).mem = Memory.write (Memory.write s.mem s.sp (loByte w)) (s.sp - 1#16) (hiByte w) := rfl
@[simp] theorem State.push16_out (w : Word) : (s.push16 w).out = s.out := rfl
@[simp] theorem State.push16_diag (w : Word) : (s.push16 w).diag = s.diag := rfl
@[simp] theorem State.push16_scratchTick (w : Word) : (s.push16 w).scratchTick = s.scratchTick := rfl

/-! ### pop8 -/

@[simp] theorem State.pop8_regs : (s.pop8.2).regs = s.regs := rfl
@[simp] theorem State.pop8_f : (s.pop8.2).f = s.f := rfl
@[simp] theorem State.pop8_pc : (s.pop8.2).pc = s.pc := rfl
@[simp] theorem State.pop8_sp : (s.pop8.2).sp = s.sp + 1#16 := rfl
@[simp] theorem State.pop8_halted : (s.pop8.2).halted = s.halted := rfl
@[simp] theorem State.pop8_mdrh : (s.pop8.2).mdrh = s.mdrh := rfl
@[simp] theorem State.pop8_mdrl : (s.pop8.2).mdrl = s.mdrl := rfl
@[simp] theorem State.pop8_mar : (s.pop8.2).mar = s.mar := rfl
@[simp] theorem State.pop8_mem : (s.pop8.2).mem = s.mem := rfl
@[simp] theorem State.pop8_out : (s.pop8.2).out = s.out := rfl
@[simp] theorem State.pop8_diag : (s.pop8.2).diag = s.diag := rfl
@[simp] theorem State.pop8_scratchTick : (s.pop8.2).scratchTick = s.scratchTick := rfl

/-! ### pop16 -/

@[simp] theorem State.pop16_regs : (s.pop16.2).regs = s.regs := rfl
@[simp] theorem State.pop16_f : (s.pop16.2).f = s.f := rfl
@[simp] theorem State.pop16_pc : (s.pop16.2).pc = s.pc := rfl
@[simp] theorem State.pop16_sp : (s.pop16.2).sp = s.sp + 1#16 + 1#16 := rfl
@[simp] theorem State.pop16_halted : (s.pop16.2).halted = s.halted := rfl
@[simp] theorem State.pop16_mdrh : (s.pop16.2).mdrh = s.mdrh := rfl
@[simp] theorem State.pop16_mdrl : (s.pop16.2).mdrl = s.mdrl := rfl
@[simp] theorem State.pop16_mar : (s.pop16.2).mar = s.mar := rfl
@[simp] theorem State.pop16_mem : (s.pop16.2).mem = s.mem := rfl
@[simp] theorem State.pop16_out : (s.pop16.2).out = s.out := rfl
@[simp] theorem State.pop16_diag : (s.pop16.2).diag = s.diag := rfl
@[simp] theorem State.pop16_scratchTick : (s.pop16.2).scratchTick = s.scratchTick := rfl

/-! ### fetch8 -/

@[simp] theorem State.fetch8_regs : (s.fetch8.2).regs = s.regs := rfl
@[simp] theorem State.fetch8_f : (s.fetch8.2).f = s.f := rfl
@[simp] theorem State.fetch8_pc : (s.fetch8.2).pc = s.pc + 1#16 := rfl
@[simp] theorem State.fetch8_sp : (s.fetch8.2).sp = s.sp := rfl
@[simp] theorem State.fetch8_halted : (s.fetch8.2).halted = s.halted := rfl
@[simp] theorem State.fetch8_mdrh : (s.fetch8.2).mdrh = s.mdrh := rfl
@[simp] theorem State.fetch8_mdrl : (s.fetch8.2).mdrl = s.mdrl := rfl
@[simp] theorem State.fetch8_mar : (s.fetch8.2).mar = s.mar := rfl
@[simp] theorem State.fetch8_mem : (s.fetch8.2).mem = s.mem := rfl
@[simp] theorem State.fetch8_out : (s.fetch8.2).out = s.out := rfl
@[simp] theorem State.fetch8_diag : (s.fetch8.2).diag = s.diag := rfl
@[simp] theorem State.fetch8_scratchTick : (s.fetch8.2).scratchTick = s.scratchTick := rfl

/-! ### clobberScratch -/

@[simp] theorem State.clobberScratch_regs : (s.clobberScratch).regs = s.regs := rfl
@[simp] theorem State.clobberScratch_f : (s.clobberScratch).f = s.f := rfl
@[simp] theorem State.clobberScratch_pc : (s.clobberScratch).pc = s.pc := rfl
@[simp] theorem State.clobberScratch_sp : (s.clobberScratch).sp = s.sp := rfl
@[simp] theorem State.clobberScratch_halted : (s.clobberScratch).halted = s.halted := rfl
@[simp] theorem State.clobberScratch_mdrh : (s.clobberScratch).mdrh = Config.freeMdrh s.scratchTick := rfl
@[simp] theorem State.clobberScratch_mdrl : (s.clobberScratch).mdrl = Config.freeMdrl s.scratchTick := rfl
@[simp] theorem State.clobberScratch_mar : (s.clobberScratch).mar = Config.freeMar s.scratchTick := rfl
@[simp] theorem State.clobberScratch_mem : (s.clobberScratch).mem = s.mem := rfl
@[simp] theorem State.clobberScratch_out : (s.clobberScratch).out = s.out := rfl
@[simp] theorem State.clobberScratch_diag : (s.clobberScratch).diag = s.diag := rfl
@[simp] theorem State.clobberScratch_scratchTick : (s.clobberScratch).scratchTick = s.scratchTick + 1 := rfl

/-! ### placeAtPc -/

@[simp] theorem State.placeAtPc_regs (bytes : List Byte) : (s.placeAtPc bytes).regs = s.regs := rfl
@[simp] theorem State.placeAtPc_f (bytes : List Byte) : (s.placeAtPc bytes).f = s.f := rfl
@[simp] theorem State.placeAtPc_pc (bytes : List Byte) : (s.placeAtPc bytes).pc = s.pc := rfl
@[simp] theorem State.placeAtPc_sp (bytes : List Byte) : (s.placeAtPc bytes).sp = s.sp := rfl
@[simp] theorem State.placeAtPc_halted (bytes : List Byte) : (s.placeAtPc bytes).halted = s.halted := rfl
@[simp] theorem State.placeAtPc_mdrh (bytes : List Byte) : (s.placeAtPc bytes).mdrh = s.mdrh := rfl
@[simp] theorem State.placeAtPc_mdrl (bytes : List Byte) : (s.placeAtPc bytes).mdrl = s.mdrl := rfl
@[simp] theorem State.placeAtPc_mar (bytes : List Byte) : (s.placeAtPc bytes).mar = s.mar := rfl
@[simp] theorem State.placeAtPc_mem (bytes : List Byte) : (s.placeAtPc bytes).mem = Memory.load s.mem s.pc bytes := rfl
@[simp] theorem State.placeAtPc_out (bytes : List Byte) : (s.placeAtPc bytes).out = s.out := rfl
@[simp] theorem State.placeAtPc_diag (bytes : List Byte) : (s.placeAtPc bytes).diag = s.diag := rfl
@[simp] theorem State.placeAtPc_scratchTick (bytes : List Byte) :
    (s.placeAtPc bytes).scratchTick = s.scratchTick := rfl

/-! ### branchIf -/

@[simp] theorem State.branchIf_regs (cond : Bool) (target15 : BitVec 15) :
    (s.branchIf cond target15).regs = s.regs := rfl
@[simp] theorem State.branchIf_f (cond : Bool) (target15 : BitVec 15) : (s.branchIf cond target15).f = s.f := rfl
@[simp] theorem State.branchIf_pc (cond : Bool) (target15 : BitVec 15) :
    (s.branchIf cond target15).pc = if cond then targetAddr target15 else s.pc := rfl
@[simp] theorem State.branchIf_sp (cond : Bool) (target15 : BitVec 15) : (s.branchIf cond target15).sp = s.sp := rfl
@[simp] theorem State.branchIf_halted (cond : Bool) (target15 : BitVec 15) :
    (s.branchIf cond target15).halted = s.halted := rfl
@[simp] theorem State.branchIf_mdrh (cond : Bool) (target15 : BitVec 15) :
    (s.branchIf cond target15).mdrh = s.mdrh := rfl
@[simp] theorem State.branchIf_mdrl (cond : Bool) (target15 : BitVec 15) :
    (s.branchIf cond target15).mdrl = s.mdrl := rfl
@[simp] theorem State.branchIf_mar (cond : Bool) (target15 : BitVec 15) : (s.branchIf cond target15).mar = s.mar := rfl
@[simp] theorem State.branchIf_mem (cond : Bool) (target15 : BitVec 15) : (s.branchIf cond target15).mem = s.mem := rfl
@[simp] theorem State.branchIf_out (cond : Bool) (target15 : BitVec 15) : (s.branchIf cond target15).out = s.out := rfl
@[simp] theorem State.branchIf_diag (cond : Bool) (target15 : BitVec 15) :
    (s.branchIf cond target15).diag = s.diag := rfl
@[simp] theorem State.branchIf_scratchTick (cond : Bool) (target15 : BitVec 15) :
    (s.branchIf cond target15).scratchTick = s.scratchTick := rfl

/-! ### applyReset -/

@[simp] theorem State.applyReset_regs : (s.applyReset).regs = State.reset.regs := rfl
@[simp] theorem State.applyReset_f : (s.applyReset).f = 0x00#8 := rfl
@[simp] theorem State.applyReset_pc : (s.applyReset).pc = 0x0000#16 := rfl
@[simp] theorem State.applyReset_sp : (s.applyReset).sp = 0xFE00#16 := rfl
@[simp] theorem State.applyReset_halted : (s.applyReset).halted = false := rfl
@[simp] theorem State.applyReset_mdrh : (s.applyReset).mdrh = 0x00#8 := rfl
@[simp] theorem State.applyReset_mdrl : (s.applyReset).mdrl = 0x00#8 := rfl
@[simp] theorem State.applyReset_mar : (s.applyReset).mar = 0x0000#16 := rfl
@[simp] theorem State.applyReset_mem : (s.applyReset).mem = s.mem := rfl
@[simp] theorem State.applyReset_out : (s.applyReset).out = s.out := rfl
@[simp] theorem State.applyReset_diag : (s.applyReset).diag = s.diag := rfl
@[simp] theorem State.applyReset_scratchTick : (s.applyReset).scratchTick = s.scratchTick := rfl

end Sys2Proof.Machine
end

