-- ==== Sys2Proof/Laws/Memory.lean ====
section
/-! SUPPORT. What the memory operations do (20_memory.md R51, R52), and that each keeps the canonical form. -/

namespace Sys2Proof.Machine

/-! ### Lookup after each list operation -/

theorem Memory.lookup_erase (m : Memory) (k j : Nat) :
    Memory.lookup (Memory.erase m k) j = if j = k then Memory.unlisted else Memory.lookup m j := by
  induction m with
  | nil => simp [Memory.erase, Memory.lookup]
  | cons c m ih =>
    simp only [Memory.erase, Memory.lookup]
    by_cases h : c.1 = k <;> by_cases hj : c.1 = j <;> simp_all [Memory.lookup]

theorem Memory.lookup_insert_same (m : Memory) (k : Nat) (v : Byte) :
    Memory.lookup (Memory.insert (Memory.erase m k) k v) k = v := by
  induction m with
  | nil => simp [Memory.erase, Memory.insert, Memory.lookup]
  | cons c m ih =>
    by_cases h : c.1 = k
    · simpa [Memory.erase, h] using ih
    · by_cases hk : k < c.1 <;> simp [Memory.erase, Memory.insert, Memory.lookup, h, hk, ih]

theorem Memory.lookup_insert_ne (m : Memory) {k j : Nat} (v : Byte) (h : j ≠ k) :
    Memory.lookup (Memory.insert m k v) j = Memory.lookup m j := by
  induction m with
  | nil => simp [Memory.insert, Memory.lookup, Ne.symm h]
  | cons c m ih =>
    by_cases hk : k < c.1 <;> simp [Memory.insert, Memory.lookup, hk, ih, Ne.symm h]

/-! ### Reads after writes -/

/-- A read answers the last byte written there. -/
@[simp] theorem Memory.read_write_same (m : Memory) (a : Addr) (v : Byte) :
    Memory.read (Memory.write m a v) a = v := by
  unfold Memory.read Memory.write
  split
  · next h => simp [Memory.lookup_erase, h]
  · exact Memory.lookup_insert_same m a.toNat v

/-- A write leaves every other address alone. -/
theorem Memory.read_write_ne (m : Memory) {a b : Addr} (v : Byte) (h : b ≠ a) :
    Memory.read (Memory.write m a v) b = Memory.read m b := by
  have hn : b.toNat ≠ a.toNat := fun e => h (BitVec.eq_of_toNat_eq e)
  unfold Memory.read Memory.write
  split
  · simp [Memory.lookup_erase, hn]
  · rw [Memory.lookup_insert_ne _ _ hn, Memory.lookup_erase, if_neg hn]

/-- Both cases at once. -/
theorem Memory.read_write (m : Memory) (a b : Addr) (v : Byte) :
    Memory.read (Memory.write m a v) b = if b = a then v else Memory.read m b := by
  split
  · next h => simp [h]
  · next h => exact Memory.read_write_ne m v h

/-! ### The canonical form is kept -/

theorem Memory.wfFrom_cons {lo : Nat} {c : Host.Cell} {m : Memory} :
    Memory.wfFrom lo (c :: m) = true ↔
      lo ≤ c.1 ∧ c.1 < 65536 ∧ c.2 ≠ Memory.unlisted ∧ Memory.wfFrom (c.1 + 1) m = true := by
  simp [Memory.wfFrom, and_assoc]

theorem Memory.wfFrom_mono {m : Memory} {lo lo' : Nat} (h : Memory.wfFrom lo m = true) (hle : lo' ≤ lo) :
    Memory.wfFrom lo' m = true := by
  cases m with
  | nil => rfl
  | cons c m =>
    rw [Memory.wfFrom_cons] at h ⊢
    exact ⟨hle.trans h.1, h.2⟩

theorem Memory.wfFrom_erase {m : Memory} {lo : Nat} (k : Nat) (h : Memory.wfFrom lo m = true) :
    Memory.wfFrom lo (Memory.erase m k) = true := by
  induction m generalizing lo with
  | nil => rfl
  | cons c m ih =>
    rw [Memory.wfFrom_cons] at h
    simp only [Memory.erase]
    split
    · exact Memory.wfFrom_mono (ih h.2.2.2) (by omega)
    · exact Memory.wfFrom_cons.2 ⟨h.1, h.2.1, h.2.2.1, ih h.2.2.2⟩

/-- Insertion keeps the form where the address is not listed yet. -/
theorem Memory.wfFrom_insert {m : Memory} {lo k : Nat} {v : Byte} (h : Memory.wfFrom lo m = true) (hlo : lo ≤ k)
    (hk : k < 65536) (hv : v ≠ Memory.unlisted) :
    Memory.wfFrom lo (Memory.insert (Memory.erase m k) k v) = true := by
  induction m generalizing lo with
  | nil => simp [Memory.erase, Memory.insert, Memory.wfFrom, hlo, hk, hv]
  | cons c m ih =>
    rw [Memory.wfFrom_cons] at h
    obtain ⟨h1, h2, h3, h4⟩ := h
    by_cases hc : c.1 = k
    · simpa [Memory.erase, hc] using ih (Memory.wfFrom_mono h4 (by omega)) hlo
    · by_cases hlt : k < c.1
      · simp only [Memory.erase, hc, Memory.insert, hlt, if_true, if_false]
        exact Memory.wfFrom_cons.2 ⟨hlo, hk, hv,
          Memory.wfFrom_cons.2 ⟨hlt, h2, h3, Memory.wfFrom_erase k h4⟩⟩
      · simp only [Memory.erase, hc, Memory.insert, hlt, if_false]
        exact Memory.wfFrom_cons.2 ⟨h1, h2, h3, ih h4 (by omega)⟩

/-- A write keeps the canonical form. -/
theorem Memory.wf_write {m : Memory} (a : Addr) (v : Byte) (h : Memory.wf m = true) :
    Memory.wf (Memory.write m a v) = true := by
  unfold Memory.wf Memory.write at *
  split
  · exact Memory.wfFrom_erase _ h
  · next hv => exact Memory.wfFrom_insert h (Nat.zero_le _) a.isLt hv

/-- A load keeps the canonical form. -/
theorem Memory.wf_load {m : Memory} (a : Addr) (bs : List Byte) (h : Memory.wf m = true) :
    Memory.wf (Memory.load m a bs) = true := by
  induction bs generalizing m a with
  | nil => exact h
  | cons v vs ih => exact ih (a + 1#16) (Memory.wf_write a v h)

/-- State.reset's memory has the canonical form. -/
theorem Memory.wf_reset : Memory.wf State.reset.mem = true := rfl

end Sys2Proof.Machine
end

