-- ==== Sys2Proof/Laws/Fetch.lean ====
section
/-! SUPPORT. What the fetch of an instruction does (30_encoding.md R71, R84; 10_state.md R29), and when a step runs. -/

namespace Sys2Proof.Machine

/-- Operand fetches read the bytes from pc on and move pc past them; nothing else changes. -/
theorem State.fetchOperands_eq (n : Nat) (s : State) :
    State.fetchOperands n s =
      ((List.range n).map fun k => Memory.read s.mem (s.pc + BitVec.ofNat 16 k),
        { s with pc := s.pc + BitVec.ofNat 16 n }) := by
  induction n generalizing s with
  | zero => simp [State.fetchOperands]
  | succ n ih =>
    have hk : ∀ k, s.pc + 1#16 + BitVec.ofNat 16 k = s.pc + BitVec.ofNat 16 (k + 1) := by
      intro k
      rw [BitVec.add_assoc, BitVec.ofNat_add, BitVec.add_comm (BitVec.ofNat 16 k)]
    simp only [State.fetchOperands, ih, State.fetch8, hk]
    rw [List.range_succ_eq_map]
    simp [Function.comp_def]

theorem operandCount_le (op : Byte) : operandCount op ≤ 3 := by
  revert op; decide

/-- The whole fetch: the instruction at pc, pc past its bytes, the scratch clobbered. -/
theorem State.fetchInstr_snd (s : State) :
    s.fetchInstr.2 =
      ({ s with pc := s.pc + 1#16 + BitVec.ofNat 16 (operandCount (Memory.read s.mem s.pc)) } :
        State).clobberScratch := by
  simp [State.fetchInstr, State.fetch8, State.fetchOperands_eq]

/-- The same in the terms claims use (10_state.md R29). -/
theorem State.fetchInstr_fetched (s : State) : FetchedFrom s s.fetchInstr.2 := by
  rw [State.fetchInstr_snd]
  refine ⟨?_, rfl, rfl, rfl, rfl, rfl, ⟨rfl, rfl⟩, rfl, rfl, rfl, rfl⟩
  have := operandCount_le (s.memRead s.pc)
  have := s.pc.isLt
  simp [State.memRead, BitVec.toNat_add] at *
  omega

/-- A byte past the instruction's length does not matter to the decoder (30_encoding.md R70). -/
theorem decodeOp_congr {b0 b1 b2 b3 c1 c2 c3 : Byte} (h1 : 1 ≤ operandCount b0 → b1 = c1)
    (h2 : 2 ≤ operandCount b0 → b2 = c2) (h3 : 3 ≤ operandCount b0 → b3 = c3) :
    decodeOp b0 b1 b2 b3 = decodeOp b0 c1 c2 c3 := by
  unfold operandCount at *
  unfold decodeOp
  split at h1 <;> simp_all

/-- The fetched instruction is the one the four bytes from pc decode to (30_encoding.md R71). -/
theorem State.fetchInstr_fst (s : State) :
    s.fetchInstr.1 =
      decodeOp (s.memRead s.pc) (s.memRead (s.pc + 1#16)) (s.memRead (s.pc + 2#16)) (s.memRead (s.pc + 3#16)) := by
  have e2 : s.pc + 1#16 + 1#16 = s.pc + 2#16 := by rw [BitVec.add_assoc]; rfl
  have e3 : s.pc + 1#16 + 2#16 = s.pc + 3#16 := by rw [BitVec.add_assoc]; rfl
  simp only [State.fetchInstr, State.fetch8, State.fetchOperands_eq, State.memRead]
  apply decodeOp_congr <;> intro h <;> simp [List.getD_eq_getElem?_getD, List.getElem?_map] <;>
    rw [List.getElem?_range (by omega)] <;> simp [e2, e3]

/-- In the state Halted there is no Step (10_state.md R42). -/
@[simp] theorem step_halted {s : State} (h : s.halted = true) : step s = .fault .halted := by
  simp [step, h]

/-- A Running core executes the fetched instruction (30_encoding.md R83). -/
theorem step_running {s : State} (h : s.halted = false) : step s = exec s.fetchInstr.1 s.fetchInstr.2 := by
  simp [step, h]

/-- What a Step that answers a next state was: a Running core, and the fetched instruction's own effect. -/
theorem step_inversion {s t : State} (h : step s = .next t) :
    s.halted = false ∧ exec s.fetchInstr.1 s.fetchInstr.2 = .next t := by
  cases hs : s.halted with
  | true => simp [step, hs] at h
  | false => exact ⟨rfl, by rwa [step_running hs] at h⟩

end Sys2Proof.Machine
end

