-- ==== Sys2Proof/Laws/Flags.lean ====
section
/-! SUPPORT. What a flag write does to each flag and to the bits no flag names (10_state.md R31, R34). -/

namespace Sys2Proof.Machine

@[simp] theorem flagGet_flagSet_same (f : Byte) (g : Flag) (b : Bool) : flagGet (flagSet f g b) g = b := by
  cases g <;> cases b <;> revert f <;> decide

theorem flagGet_flagSet_ne (f : Byte) {g h : Flag} (b : Bool) (hne : h ≠ g) :
    flagGet (flagSet f g b) h = flagGet f h := by
  cases g <;> cases h <;> first | exact absurd rfl hne | (cases b <;> revert f <;> decide)

/-- Both cases at once. -/
theorem flagGet_flagSet (f : Byte) (g h : Flag) (b : Bool) :
    flagGet (flagSet f g b) h = if h = g then b else flagGet f h := by
  split
  · next e => simp [e]
  · next e => exact flagGet_flagSet_ne f b e

/-- No flag write touches bits 7:5 of F. -/
@[simp] theorem flagSet_high (f : Byte) (g : Flag) (b : Bool) : flagSet f g b &&& 0xE0#8 = f &&& 0xE0#8 := by
  cases g <;> cases b <;> revert f <;> decide

/-- A write of C, Z, N or V touches neither I nor bits 7:5 (10_state.md R33, R35). -/
theorem flagSet_reserved (f : Byte) {g : Flag} (b : Bool) (h : g ≠ .interruptDisable) :
    flagSet f g b &&& 0xE4#8 = f &&& 0xE4#8 := by
  cases g <;> first | exact absurd rfl h | (cases b <;> revert f <;> decide)

/-! ### The flags after each shared ALU operation -/

/-- Z and N come from the result, the others are kept (42_alu.md R132). -/
theorem State.flag_setLogicFlags (s : State) (r : Byte) (g : Flag) :
    (s.setLogicFlags r).flag g =
      match g with
      | .zero => r == 0#8
      | .negative => r.getLsbD 7
      | .carry => s.flag .carry
      | .interruptDisable => s.flag .interruptDisable
      | .overflow => s.flag .overflow := by
  cases g <;> simp [State.flag, flagGet_flagSet]

/-- A logical result leaves the flags of its register write's own result (42_alu.md R132). -/
theorem State.flag_putLogic (s : State) (d : Reg) (r : Byte) (g : Flag) :
    (s.putLogic d r).flag g = (s.setLogicFlags r).flag g := rfl

/-- C, Z, N and V come from the sum, I is kept (42_alu.md R131). -/
theorem State.flag_putSum8 (s : State) (d : Reg) (q : Sum8) (g : Flag) :
    (s.putSum8 d q).flag g =
      match g with
      | .carry => q.c
      | .zero => q.z
      | .negative => q.n
      | .overflow => q.v
      | .interruptDisable => s.flag .interruptDisable := by
  cases g <;> simp [State.flag, flagGet_flagSet]

/-- C, Z and N come from the sum, V and I are kept (42_alu.md R134). -/
theorem State.flag_putSum16 (s : State) (p : Pair) (q : Sum16) (g : Flag) :
    (s.putSum16 p q).flag g =
      match g with
      | .carry => q.c
      | .zero => q.z
      | .negative => q.n
      | .overflow => s.flag .overflow
      | .interruptDisable => s.flag .interruptDisable := by
  cases g <;> simp [State.flag, flagGet_flagSet]

end Sys2Proof.Machine
end

