-- ==== Sys2Proof/Laws/PerInstr.lean ====
section
/-! SUPPORT. Statements about every instruction as syntax, one lemma per constructor. -/

namespace Sys2Proof.Laws.EncodedLength

/-- A well-formed instruction is encoded in one opcode byte and the operand bytes its opcode fixes (30_encoding.md R70). -/
def Statement (i : Instr) : Prop := WellFormed i → (encode i).length = operandCount (opcodeOf i) + 1

theorem nop : Statement .nop := fun _ => rfl
theorem hlt : Statement .hlt := fun _ => rfl
theorem ldi (d : Reg) (imm8 : Byte) : Statement (.ldi d imm8) := fun _ => rfl
theorem ld (d : Reg) (offset14 : BitVec 14) : Statement (.ld d offset14) := fun _ => rfl
theorem st (src : Reg) (offset14 : BitVec 14) : Statement (.st src offset14) := fun _ => rfl
theorem mov (d src : Reg) : Statement (.mov d src) := fun _ => rfl
theorem add (d a b : Reg) : Statement (.add d a b) := fun _ => rfl
theorem adc (d a b : Reg) : Statement (.adc d a b) := fun _ => rfl
theorem and (d a b : Reg) : Statement (.and d a b) := fun _ => rfl
theorem jmp (target15 : BitVec 15) : Statement (.jmp target15) := fun _ => rfl
theorem out (r : Reg) : Statement (.out r) := fun _ => rfl
theorem cpi (r : Reg) (imm8 : Byte) : Statement (.cpi r imm8) := fun _ => rfl
theorem beq (target15 : BitVec 15) : Statement (.beq target15) := fun _ => rfl
theorem bgt (target15 : BitVec 15) : Statement (.bgt target15) := fun _ => rfl
theorem ldir (d a : Reg) : Statement (.ldir d a) := fun _ => rfl
theorem stir (src a : Reg) : Statement (.stir src a) := fun _ => rfl
theorem ldirp (d : Reg) (p : Pair) : Statement (.ldirp d p) := fun _ => rfl
theorem stirp (src : Reg) (p : Pair) : Statement (.stirp src p) := fun _ => rfl
theorem addiw (p : Pair) (imm16 : Word) : Statement (.addiw p imm16) := fun _ => rfl
theorem addi (d : Reg) (imm8 : Byte) : Statement (.addi d imm8) := fun _ => rfl
theorem outp (p : Pair) : Statement (.outp p) := fun _ => rfl
theorem outa (r : Reg) : Statement (.outa r) := fun _ => rfl
theorem or (d a b : Reg) : Statement (.or d a b) := fun _ => rfl
theorem not (d src : Reg) : Statement (.not d src) := fun _ => rfl
theorem xor (d a b : Reg) : Statement (.xor d a b) := fun _ => rfl
theorem blt (target15 : BitVec 15) : Statement (.blt target15) := fun _ => rfl
theorem call (target15 : BitVec 15) : Statement (.call target15) := fun _ => rfl
theorem ret : Statement .ret := fun _ => rfl

theorem unrecognized (op : Byte) : Statement (.unrecognized op) := by
  revert op
  simp only [Statement]
  decide

end Sys2Proof.Laws.EncodedLength
end

