-- ==== Sys2Proof/Laws/Registers.lean ====
section
/-! SUPPORT. What a register or pair write does to each read (10_state.md R21, R25 to R27). -/

namespace Sys2Proof.Machine

@[simp] theorem RegFile.get_set_same (g : RegFile) (r : Reg) (v : Byte) : (g.set r v).get r = v := by
  cases r <;> rfl

theorem RegFile.get_set_ne (g : RegFile) {r q : Reg} (v : Byte) (h : q ≠ r) : (g.set r v).get q = g.get q := by
  cases r <;> cases q <;> first | rfl | exact absurd rfl h

/-- Both cases at once. -/
theorem RegFile.get_set (g : RegFile) (r q : Reg) (v : Byte) :
    (g.set r v).get q = if q = r then v else g.get q := by
  split
  · next h => simp [h]
  · next h => exact RegFile.get_set_ne g v h

theorem pairHi_ne_pairLo (p q : Pair) : pairHi p ≠ pairLo q := by
  cases p <;> cases q <;> decide

/-- A pair is the number `256 * high + low` (10_state.md R25). -/
theorem toNat_joinBytes (hi lo : Byte) : (joinBytes hi lo).toNat = hi.toNat * 256 + lo.toNat := by
  have := lo.isLt
  rw [joinBytes, BitVec.toNat_append, ← Nat.shiftLeft_add_eq_or_of_lt (by simpa using this), Nat.shiftLeft_eq]

theorem toNat_hiByte (w : Word) : (hiByte w).toNat = w.toNat / 256 := by
  have := w.isLt
  rw [hiByte, BitVec.extractLsb'_toNat, Nat.shiftRight_eq_div_pow]
  omega

theorem toNat_loByte (w : Word) : (loByte w).toNat = w.toNat % 256 := by
  rw [loByte, BitVec.extractLsb'_toNat, Nat.shiftRight_zero]

@[simp] theorem hiByte_joinBytes (hi lo : Byte) : hiByte (joinBytes hi lo) = hi := by
  have := lo.isLt
  apply BitVec.eq_of_toNat_eq
  rw [toNat_hiByte, toNat_joinBytes]
  omega

@[simp] theorem loByte_joinBytes (hi lo : Byte) : loByte (joinBytes hi lo) = lo := by
  have := lo.isLt
  apply BitVec.eq_of_toNat_eq
  rw [toNat_loByte, toNat_joinBytes]
  omega

@[simp] theorem joinBytes_hi_lo (w : Word) : joinBytes (hiByte w) (loByte w) = w := by
  apply BitVec.eq_of_toNat_eq
  rw [toNat_joinBytes, toNat_hiByte, toNat_loByte]
  omega

/-- A pair write is read back by the same pair (10_state.md R26). -/
@[simp] theorem State.getPair_setPair_same (s : State) (p : Pair) (v : Word) : (s.setPair p v).getPair p = v := by
  cases p <;> simp [State.getPair, State.getReg, pairHi, pairLo, RegFile.get_set]

end Sys2Proof.Machine
end

