-- ==== Sys2Proof/Laws/Stack.lean ====
section
/-! SUPPORT. What the stack operations do to memory (10_state.md R37 to R39). -/

namespace Sys2Proof.Machine

/-- A push changes the byte at sp and no other. -/
theorem State.memRead_push8 (s : State) (v : Byte) (a : Addr) :
    (s.push8 v).memRead a = if a = s.sp then v else s.memRead a := by
  simp [State.memRead, Memory.read_write]

/-- A 16-bit push changes two bytes: the high one at sp - 1 was written last. -/
theorem State.memRead_push16 (s : State) (w : Word) (a : Addr) :
    (s.push16 w).memRead a =
      if a = s.sp - 1#16 then hiByte w else if a = s.sp then loByte w else s.memRead a := by
  simp [State.memRead, Memory.read_write]

/-- A 16-bit pop reads the high byte first. -/
theorem State.pop16_value (s : State) :
    s.pop16.1 = joinBytes (s.memRead (s.sp + 1#16)) (s.memRead (s.sp + 1#16 + 1#16)) := rfl

end Sys2Proof.Machine
end

