-- ==== Sys2Proof/Tests/Slice0.lean ====
section
/-! SUPPORT. The model's own tests: decoding of words written out from 30_encoding.md R72, single Steps on the vectors of
95_test_vectors.md, the smoke test of WellFormed, and a witness for each statement with hypotheses. -/

namespace Sys2Proof.Tests

open Sys2Proof.Machine

/-- The reset state with registers, F and some bytes of memory given as (address, bytes) runs. -/
def start (pc sp : Word) (x : RegFile) (f : Byte) (runs : List (Addr × List Byte)) : State :=
  { State.reset with
    pc := pc
    sp := sp
    regs := x
    f := f
    mem := runs.foldl (fun m r => Memory.load m r.1 r.2) [] }

/-- One Step answers a next state that passes a check. -/
def stepGives (s : State) (p : State → Bool) : Bool :=
  match step s with
  | .next t => p t
  | .fault _ => false
  | .refused _ => false

/-! ### WellFormed -/

theorem test_wf_refuses_unrecognized_with_a_real_opcode : (Instr.unrecognized 0x06#8).wf = false := by decide

theorem test_wf_accepts_unrecognized_in_the_gap : WellFormed (.unrecognized 0x1A#8) := by decide

/-! ### Decoding: words written out bit by bit from R72, some with the ignored bits set -/

theorem test_decode_machine_control :
    decode [0b00000000#8] = .ok (.nop, []) ∧ decode [0b00000001#8] = .ok (.hlt, []) ∧
    decode [0b00011111#8, 0x00#8] = .ok (.unrecognized 0x1F#8, [0x00#8]) ∧
    decode [0b00100010#8] = .ok (.unrecognized 0x22#8, []) := by decide

theorem test_decode_data_transfer :
    decode [0b00000010#8, 0b11111110#8, 0x55#8] = .ok (.ldi .r2 0x55#8, []) ∧
    decode [0b00000011#8, 0b01000001#8, 0x23#8] = .ok (.ld .r1 0x0123#14, []) ∧
    decode [0b00000100#8, 0b11111111#8, 0xFF#8] = .ok (.st .r3 0x3FFF#14, []) ∧
    decode [0b00000101#8, 0b11110100#8] = .ok (.mov .r1 .r0, []) := by decide

theorem test_decode_indirect :
    decode [0b00001110#8, 0b00001101#8] = .ok (.ldir .r3 .r1, []) ∧
    decode [0b00001111#8, 0b00000110#8] = .ok (.stir .r1 .r2, []) ∧
    decode [0b00010000#8, 0b11110001#8] = .ok (.ldirp .r3 .p1, []) ∧
    decode [0b00010001#8, 0b00110000#8] = .ok (.stirp .r3 .p0, []) := by decide

theorem test_decode_alu_registers :
    decode [0b00000110#8, 0b00100001#8] = .ok (.add .r2 .r0 .r1, []) ∧
    decode [0b00000111#8, 0b00100001#8] = .ok (.adc .r2 .r0 .r1, []) ∧
    decode [0b00001000#8, 0b00110110#8] = .ok (.and .r3 .r1 .r2, []) ∧
    decode [0b00010110#8, 0b00000001#8] = .ok (.or .r0 .r0 .r1, []) ∧
    decode [0b00011000#8, 0b00101010#8] = .ok (.xor .r2 .r2 .r2, []) ∧
    decode [0b00010111#8, 0b00111110#8] = .ok (.not .r3 .r2, []) := by decide

theorem test_decode_alu_immediates :
    decode [0b00001011#8, 0b00000001#8, 0x05#8] = .ok (.cpi .r1 0x05#8, []) ∧
    decode [0b00010011#8, 0b00000001#8, 0x01#8] = .ok (.addi .r1 0x01#8, []) ∧
    decode [0b00010010#8, 0b00000001#8, 0x12#8, 0x34#8] = .ok (.addiw .p1 0x1234#16, []) := by decide

theorem test_decode_control_transfer :
    decode [0b00001001#8, 0b11111111#8, 0xFF#8] = .ok (.jmp 0x7FFF#15, []) ∧
    decode [0b00001100#8, 0x00#8, 0x13#8] = .ok (.beq 0x0013#15, []) ∧
    decode [0b00001101#8, 0x01#8, 0x00#8] = .ok (.bgt 0x0100#15, []) ∧
    decode [0b00011001#8, 0x00#8, 0x40#8] = .ok (.blt 0x0040#15, []) ∧
    decode [0b00100000#8, 0x7F#8, 0xFF#8] = .ok (.call 0x7FFF#15, []) ∧
    decode [0b00100001#8] = .ok (.ret, []) := by decide

theorem test_decode_output :
    decode [0b00001010#8, 0b11111110#8] = .ok (.out .r2, []) ∧
    decode [0b00010100#8, 0b11111110#8] = .ok (.outp .p0, []) ∧
    decode [0b00010101#8, 0b00000011#8] = .ok (.outa .r3, []) := by decide

theorem test_decode_rejects_by_name :
    decode [] = .error .noOpcode ∧ decode [0x12#8, 0x00#8, 0x00#8] = .error (.truncated 0x12#8) := by decide

/-- 30_encoding.md R87's column of encodings. -/
theorem test_encode_words :
    encode (.st .r3 0x3FFF#14) = [0x04#8, 0xFF#8, 0xFF#8] ∧ encode (.ldirp .r2 .p0) = [0x10#8, 0x20#8] ∧
    encode (.not .r1 .r0) = [0x17#8, 0x10#8] ∧ encode (.addiw .p0 0x0010#16) = [0x12#8, 0x00#8, 0x00#8, 0x10#8] ∧
    encode (.call 0x000D#15) = [0x20#8, 0x00#8, 0x0D#8] := by decide

/-- The table's numbering: the first byte is bits 7 to 0. -/
theorem test_table_words :
    decodeTableWord 8 0x21 = some .ret ∧ decodeTableWord 16 0x2106 = some (.add .r2 .r0 .r1) ∧
    decodeTableWord 8 0x12 = some (.addiw .p0 0x0000#16) ∧
    decodeTableWord 32 0x10000112 = some (.addiw .p1 0x0010#16) ∧
    decodeTableWord 8 0x80 = some (.unrecognized 0x80#8) := by decide

theorem test_fetch_word_runs :
    stepGives (State.reset.withFetchWord 24 0x7F0202) (fun t => t.getReg .r2 == 0x7F#8 && t.pc == 0x0003#16) = true := by
  decide

/-! ### Fetch, reset and the run state -/

/-- 95_test_vectors.md 2.1, "Fetch wraps". -/
theorem test_fetch_wraps :
    stepGives (start 0xFFFF#16 0xFE00#16 ⟨0, 0, 0, 0⟩ 0 [(0xFFFF#16, [0x02#8, 0x01#8, 0x77#8])])
      (fun t => t.getReg .r1 == 0x77#8 && t.pc == 0x0002#16) = true := by decide

/-- 2.2, W6. -/
theorem test_hlt_halts :
    stepGives (start 0x0020#16 0xFE00#16 ⟨1, 2, 3, 4⟩ 0x09#8 [(0x0020#16, [0x01#8])])
      (fun t => t.halted && t.pc == 0x0021#16 && t.f == 0x09#8 && t.getReg .r3 == 4#8) = true := by decide

theorem test_nop_at_the_top :
    stepGives (start 0xFFFF#16 0xFE00#16 ⟨0, 0, 0, 0⟩ 0 []) (fun t => t.pc == 0x0000#16 && !t.halted) = true := by decide

/-- W7. -/
theorem test_unrecognized_reports :
    stepGives (start 0#16 0xFE00#16 ⟨0, 0, 0, 0⟩ 0 [(0#16, [0xFF#8])])
      (fun t => t.halted && t.pc == 0x0001#16 && t.diag == [.unknownOpcode 0xFF#8]) = true := by decide

/-- 10_state.md R42. -/
theorem test_halted_core_stands_still : step { State.reset with halted := true } = .fault .halted := by
  simp

/-- 2.7. -/
theorem test_reset_keeps_memory :
    (State.applyReset { start 5#16 1#16 ⟨1, 2, 3, 4⟩ 0xFF#8 [(0x9244#16, [0xAB#8])] with halted := true }).memRead
      0x9244#16 = 0xAB#8 := by decide

/-- 2.7: a program of 65537 bytes is refused. -/
theorem test_boot_refuses_overlong :
    boot [] (List.replicate 65537 0x00#8) = .refused .programTooLong := by
  rw [boot, if_pos (by rw [List.length_replicate]; omega)]

/-- W10. -/
theorem test_pair_is_high_low :
    (start 0#16 0#16 ⟨0x12#8, 0x34#8, 0, 0⟩ 0 []).getPair .p0 = 0x1234#16 := by decide

/-- Memory stays canonical: writing what an unlisted address reads as removes the cell. -/
theorem test_memory_canonical :
    Memory.write (Memory.write (Memory.write [] 9#16 1#8) 3#16 2#8) 9#16 0#8 = [(3, 2#8)] := by decide

/-! ### Data transfer (2.4) -/

theorem test_ld_top_of_range :
    stepGives (start 0#16 0xFE00#16 ⟨0, 0, 0, 0⟩ 0 [(0#16, [0x03#8, 0xFF#8, 0xFF#8]), (0xBFFF#16, [0x22#8])])
      (fun t => t.getReg .r3 == 0x22#8) = true := by decide

theorem test_st_top_of_range :
    stepGives (start 0#16 0xFE00#16 ⟨0, 0, 0, 0x99#8⟩ 0 [(0#16, [0x04#8, 0xFF#8, 0xFF#8])])
      (fun t => t.memRead 0xBFFF#16 == 0x99#8) = true := by decide

theorem test_mov_ignores_high_nibble :
    stepGives (start 0#16 0xFE00#16 ⟨0x9C#8, 0, 0, 0⟩ 0 [(0#16, [0x05#8, 0xF4#8])])
      (fun t => t.getReg .r1 == 0x9C#8 && t.pc == 0x0002#16) = true := by decide

theorem test_ldir_uses_old_address_register :
    stepGives (start 0#16 0xFE00#16 ⟨0x10#8, 0, 0, 0⟩ 0 [(0#16, [0x0E#8, 0x00#8]), (0x8010#16, [0xC3#8])])
      (fun t => t.getReg .r0 == 0xC3#8) = true := by decide

theorem test_stir_stores_source_not_address :
    stepGives (start 0#16 0xFE00#16 ⟨0, 0xAA#8, 0, 0⟩ 0 [(0#16, [0x0F#8, 0x06#8])])
      (fun t => t.memRead 0x8000#16 == 0xAA#8) = true := by decide

theorem test_ldirp_wraps :
    stepGives (start 0#16 0xFE00#16 ⟨0, 0, 0x80#8, 0⟩ 0 [(0#16, [0x10#8, 0xF1#8])])
      (fun t => t.getReg .r3 == 0x10#8) = true := by decide

theorem test_stirp_reaches_the_stack :
    stepGives (start 0#16 0xFE00#16 ⟨0x5C#8, 0, 0x7E#8, 0⟩ 0 [(0#16, [0x11#8, 0x01#8])])
      (fun t => t.memRead 0xFE00#16 == 0x5C#8) = true := by decide

/-! ### ALU (2.3) -/

theorem test_add_overflow_and_carry :
    stepGives (start 0#16 0xFE00#16 ⟨0x80#8, 0x80#8, 0, 0⟩ 0x08#8 [(0#16, [0x06#8, 0x21#8])])
      (fun t => t.getReg .r2 == 0x00#8 && t.f == 0x13#8) = true := by decide

theorem test_adc_overflow_from_the_operands :
    stepGives (start 0#16 0xFE00#16 ⟨0x00#8, 0x7F#8, 0, 0⟩ 0x01#8 [(0#16, [0x07#8, 0x21#8])])
      (fun t => t.getReg .r2 == 0x80#8 && t.f == 0x18#8) = true := by decide

theorem test_adc_carry_out_of_255_plus_1 :
    stepGives (start 0#16 0xFE00#16 ⟨0x00#8, 0xFF#8, 0, 0⟩ 0x01#8 [(0#16, [0x07#8, 0x21#8])])
      (fun t => t.getReg .r2 == 0x00#8 && t.f == 0x03#8) = true := by decide

theorem test_addi_ignores_the_carry :
    stepGives (start 0#16 0xFE00#16 ⟨0x05#8, 0, 0, 0⟩ 0x01#8 [(0#16, [0x13#8, 0x00#8, 0x01#8])])
      (fun t => t.getReg .r0 == 0x06#8 && t.f == 0x00#8) = true := by decide

theorem test_addiw_second_pair_keeps_overflow :
    stepGives (start 0#16 0xFE00#16 ⟨0, 0, 0xFF#8, 0xFF#8⟩ 0x10#8 [(0#16, [0x12#8, 0x01#8, 0x00#8, 0x02#8])])
      (fun t => t.getReg .r2 == 0x00#8 && t.getReg .r3 == 0x01#8 && t.f == 0x11#8 && t.pc == 0x0004#16) = true := by
  decide

theorem test_addiw_negative_is_bit_15 :
    stepGives (start 0#16 0xFE00#16 ⟨0x7F#8, 0xFF#8, 0, 0⟩ 0 [(0#16, [0x12#8, 0x00#8, 0x00#8, 0x01#8])])
      (fun t => t.getPair .p0 == 0x8000#16 && t.f == 0x08#8) = true := by decide

theorem test_and_keeps_carry_and_overflow :
    stepGives (start 0#16 0xFE00#16 ⟨0, 0x0F#8, 0xF0#8, 0⟩ 0x11#8 [(0#16, [0x08#8, 0x36#8])])
      (fun t => t.getReg .r3 == 0x00#8 && t.f == 0x13#8) = true := by decide

theorem test_or_sets_negative :
    stepGives (start 0#16 0xFE00#16 ⟨0x80#8, 0x01#8, 0, 0⟩ 0 [(0#16, [0x16#8, 0x01#8])])
      (fun t => t.getReg .r0 == 0x81#8 && t.f == 0x08#8) = true := by decide

theorem test_xor_clears_zero_and_negative :
    stepGives (start 0#16 0xFE00#16 ⟨0x03#8, 0x02#8, 0, 0⟩ 0x0A#8 [(0#16, [0x18#8, 0x01#8])])
      (fun t => t.getReg .r0 == 0x01#8 && t.f == 0x00#8) = true := by decide

/-- W8 and D5: the shift is logical. -/
theorem test_not_shift_is_logical :
    stepGives (start 0#16 0xFE00#16 ⟨0x80#8, 0, 0, 0⟩ 0x13#8 [(0#16, [0x17#8, 0x10#8])])
      (fun t => t.getReg .r1 == 0xDF#8 && t.f == 0x19#8) = true := by decide

theorem test_cpi_wrapped_difference :
    stepGives (start 0#16 0xFE00#16 ⟨0x80#8, 0, 0, 0⟩ 0x11#8 [(0#16, [0x0B#8, 0x00#8, 0x01#8])])
      (fun t => t.getReg .r0 == 0x80#8 && t.f == 0x11#8) = true := by decide

/-! ### Control transfer (2.5) -/

theorem test_jmp_ignores_bit_7 :
    stepGives (start 0#16 0xFE00#16 ⟨0, 0, 0, 0⟩ 0 [(0#16, [0x09#8, 0x92#8, 0x34#8])])
      (fun t => t.pc == 0x1234#16) = true := by decide

theorem test_beq_not_taken :
    stepGives (start 9#16 0xFE00#16 ⟨0, 0, 0, 0⟩ 0x08#8 [(9#16, [0x0C#8, 0x00#8, 0x13#8])])
      (fun t => t.pc == 0x000C#16) = true := by decide

theorem test_bgt_taken_on_equality :
    stepGives (start 0x20#16 0xFE00#16 ⟨0, 0, 0, 0⟩ 0x02#8 [(0x20#16, [0x0D#8, 0x01#8, 0x00#8])])
      (fun t => t.pc == 0x0100#16) = true := by decide

theorem test_blt_taken :
    stepGives (start 0x20#16 0xFE00#16 ⟨0, 0, 0, 0⟩ 0x08#8 [(0x20#16, [0x19#8, 0x00#8, 0x40#8])])
      (fun t => t.pc == 0x0040#16) = true := by decide

theorem test_call_at_sp_zero :
    stepGives (start 0x100#16 0x0000#16 ⟨0, 0, 0, 0⟩ 0 [(0x100#16, [0x20#8, 0x02#8, 0x00#8])])
      (fun t => t.memRead 0x0000#16 == 0x03#8 && t.memRead 0xFFFF#16 == 0x01#8 && t.sp == 0xFFFE#16 &&
        t.pc == 0x0200#16) = true := by decide

theorem test_ret_wraps :
    stepGives (start 0x100#16 0xFFFF#16 ⟨0, 0, 0, 0⟩ 0 [(0x100#16, [0x21#8]), (0#16, [0x12#8, 0x34#8])])
      (fun t => t.pc == 0x1234#16 && t.sp == 0x0001#16) = true := by decide

/-! ### Output (2.6) -/

theorem test_out_is_unsigned :
    stepGives (start 0#16 0xFE00#16 ⟨0xFF#8, 0, 0, 0⟩ 0 [(0#16, [0x0A#8, 0x00#8])])
      (fun t => t.out == [.dec8 255#8] && t.shownText == ['2', '5', '5', '\n']) = true := by decide

theorem test_outp_ignores_other_bits :
    stepGives (start 0#16 0xFE00#16 ⟨0x00#8, 0x01#8, 0, 0⟩ 0 [(0#16, [0x14#8, 0xFE#8])])
      (fun t => t.out == [.dec16 1#16]) = true := by decide

theorem test_outa_sends_the_byte :
    stepGives (start 0#16 0xFE00#16 ⟨0x41#8, 0, 0, 0⟩ 0 [(0#16, [0x15#8, 0x00#8])])
      (fun t => t.out == [.char 0x41#8] && t.pc == 0x0002#16) = true := by decide

/-! ### Witnesses: the hypotheses of the statements can be met -/

/-- A small Running state whose next instruction is given. -/
def running (bytes : List Byte) : State := start 0#16 0xFE00#16 ⟨1, 2, 3, 4⟩ 0 [(0#16, bytes)]

theorem witness_StepRunsTheDecodedInstruction :
    (running [0x06#8, 0x21#8]).halted = false ∧ WellFormed (.add .r2 .r0 .r1) ∧
    decode (running [0x06#8, 0x21#8]).bytesAtPc = .ok (.add .r2 .r0 .r1, []) := by decide

theorem witness_OnlyHltAndUnrecognizedSetHalted : ∃ t, step (running [0x01#8]) = .next t := ⟨_, rfl⟩

theorem witness_RunningStepsAndHaltedDoesNot :
    (running [0x06#8, 0x21#8]).halted = false ∧ recognizedOpcode ((running [0x21#8]).memRead 0#16) = true ∧
    recognizedOpcode ((running [0x22#8]).memRead 0#16) = false ∧ (running [0x22#8]).halted = false ∧
    { running [] with halted := true }.halted = true := by decide

theorem witness_RunEndsOnlyWhenHalted :
    (∃ t, runFor 1 (running [0x01#8]) = .next t ∧ t.halted = true) ∧
    ∃ t, runFor 1 (running [0x00#8]) = .next t ∧ t.halted = false := ⟨⟨_, rfl, rfl⟩, _, rfl, rfl⟩

theorem witness_BootOverlaysProgramOnMem0 :
    (List.replicate 65536 0x00#8).length ≤ 65536 ∧ 65536 < (List.replicate 65537 0x00#8).length := by
  rw [List.length_replicate, List.length_replicate]
  omega

theorem witness_DecodingIsTotal :
    operandCount 0x12#8 ≤ [0x00#8, 0x00#8, 0x01#8].length ∧ [0x00#8, 0x00#8].length < operandCount 0x12#8 := by decide

theorem witness_DecodeOfEncodeIsTheInstruction : WellFormed (.unrecognized 0xFF#8) ∧ WellFormed (.ld .r3 0x3FFF#14) := by
  decide

theorem witness_PlacedWordRunsNext : decodeTableWord 16 0x2106 = some (.add .r2 .r0 .r1) := by decide

theorem witness_NopOnlyMovesPc :
    (running [0x00#8]).halted = false ∧ (running [0x00#8]).memRead (running [0x00#8]).pc = 0x00#8 := by decide

theorem witness_HltHalts :
    (running [0x01#8]).halted = false ∧ (running [0x01#8]).memRead (running [0x01#8]).pc = 0x01#8 := by decide

theorem witness_UnrecognizedOpcodeReportsAndHalts_step :
    (running [0x1F#8]).halted = false ∧
    recognizedOpcode ((running [0x1F#8]).memRead (running [0x1F#8]).pc) = false := by decide

theorem witness_UnrecognizedOpcodeReportsAndHalts :
    recognizedOpcode 0x1A#8 = false ∧ recognizedOpcode 0x1F#8 = false ∧ recognizedOpcode 0x22#8 = false ∧
    recognizedOpcode 0xFF#8 = false ∧ recognizedOpcode 0x19#8 = true ∧ recognizedOpcode 0x21#8 = true := by decide

theorem witness_EveryMem0IsOneCanonicalMemory :
    Memory.wf [] = true ∧ ∀ a : Addr, Memory.read [] a = (fun _ => Memory.unlisted) a := ⟨rfl, fun _ => rfl⟩

theorem witness_StoresWriteOnlyTheAddressedByte :
    directAddr 0x3FFF#14 = 0xBFFF#16 ∧ (running []).regIndirectAddr .r3 = 0x8004#16 ∧
    (running []).pairIndirectAddr .p1 = 0x8304#16 := by decide

theorem witness_AddLawsHold :
    (0xFE#8).toNat ≤ 0xFE ∧ (add8 0x80#8 0x80#8 false).v = true ∧ (add8 0x7F#8 0x00#8 true).v = true := by decide

/-- Each clause at both ends of its band: unsigned, then signed, differences 127, -128, 128 and -129. -/
theorem witness_CompareThenBranchMeansLessThanInBand :
    ((127#8).toNat ≤ (0#8).toNat + 127 ∧ (0#8).toNat ≤ (127#8).toNat + 128) ∧
    ((0#8).toNat ≤ (128#8).toNat + 127 ∧ (128#8).toNat ≤ (0#8).toNat + 128) ∧
    ¬((128#8).toNat ≤ (0#8).toNat + 127 ∧ (0#8).toNat ≤ (128#8).toNat + 128) ∧
    ¬((0#8).toNat ≤ (129#8).toNat + 127 ∧ (129#8).toNat ≤ (0#8).toNat + 128) ∧
    (-128 ≤ (0x7F#8).toInt - (0x00#8).toInt ∧ (0x7F#8).toInt - (0x00#8).toInt ≤ 127) ∧
    (-128 ≤ (0x80#8).toInt - (0x00#8).toInt ∧ (0x80#8).toInt - (0x00#8).toInt ≤ 127) ∧
    ¬(-128 ≤ (0x7F#8).toInt - (0xFF#8).toInt ∧ (0x7F#8).toInt - (0xFF#8).toInt ≤ 127) ∧
    ¬(-128 ≤ (0x80#8).toInt - (0x01#8).toInt ∧ (0x80#8).toInt - (0x01#8).toInt ≤ 127) := by decide

theorem witness_CallThenRetReturns :
    ∃ c, exec (.call 0x000D#15) (running []) = .next c ∧ c.sp = c.sp ∧
      c.memRead (c.sp + 1#16) = c.memRead (c.sp + 1#16) ∧ c.memRead (c.sp + 2#16) = c.memRead (c.sp + 2#16) :=
  ⟨_, rfl, rfl, rfl, rfl⟩

theorem witness_PcEndsAfterTheInstruction :
    (running [0x12#8]).halted = false ∧ (running [0x12#8]).memRead (running [0x12#8]).pc ∉
      [0x09#8, 0x0C#8, 0x0D#8, 0x19#8, 0x20#8, 0x21#8] ∧
    (running [0x20#8]).memRead (running [0x20#8]).pc ∈ [0x09#8, 0x20#8] := by decide

theorem witness_OnlyCallAndRetMoveSp :
    (running []).halted = false ∧ (running [0x20#8]).memRead 0#16 = 0x20#8 ∧ (running [0x21#8]).memRead 0#16 = 0x21#8 ∧
    (running [0x22#8]).memRead 0#16 ≠ 0x20#8 ∧ (running [0x22#8]).memRead 0#16 ≠ 0x21#8 := by decide

theorem witness_FlagsAreWrittenOnlyByTheirInstructions :
    (running [0x08#8]).halted = false ∧ (running [0x08#8]).memRead 0#16 ∉ [0x06#8, 0x07#8, 0x12#8, 0x13#8] ∧
    (running [0x02#8]).memRead 0#16 ∉ [0x06#8, 0x07#8, 0x08#8, 0x0B#8, 0x12#8, 0x13#8, 0x16#8, 0x17#8, 0x18#8] ∧
    (running [0x12#8]).memRead 0#16 ∉ [0x06#8, 0x07#8, 0x13#8] := by decide

theorem witness_RegistersAreWrittenOnlyByTheirInstructions :
    (running [0x0B#8]).halted = false ∧ (running [0x0B#8]).memRead 0#16 ∉ [0x02#8, 0x03#8, 0x05#8, 0x06#8, 0x07#8, 0x08#8,
      0x0E#8, 0x10#8, 0x12#8, 0x13#8, 0x16#8, 0x17#8, 0x18#8] := by decide

theorem witness_MemoryAndOutputChangeOnlyByTheirInstructions :
    (running [0x10#8]).halted = false ∧ (running [0x10#8]).memRead 0#16 ∉ [0x04#8, 0x0F#8, 0x11#8, 0x20#8] ∧
    (running [0x10#8]).memRead 0#16 ∉ [0x0A#8, 0x14#8, 0x15#8] ∧
    (running [0x15#8]).memRead 0#16 ∈ [0x0A#8, 0x14#8, 0x15#8] := by decide

theorem witness_InvariantHoldsAtReset :
    Memory.wf (running [0x15#8]).mem = true ∧ Memory.wf [(3, 2#8)] = true ∧ [0x01#8].length ≤ 65536 := by decide

theorem witness_EveryStepKeepsTheInvariant :
    Inv (running [0x04#8, 0x40#8, 0x10#8]) ∧ ∃ t, step (running [0x04#8, 0x40#8, 0x10#8]) = .next t :=
  ⟨⟨by decide, by unfold State.reservedClear; decide⟩, _, rfl⟩

theorem witness_UnreadFlagBitsAreUnobservable :
    (running [0x07#8]).halted = false ∧ 0xF4#8 &&& 0x0B#8 = (running [0x07#8]).f &&& 0x0B#8 := by decide

theorem witness_SentEventsAreUnobservable : (running [0x0A#8]).halted = false := by decide

end Sys2Proof.Tests
end

section
/-! A canonical memory is determined by what its addresses read as, and every content has one (log entry 1). -/

namespace Sys2Proof.Machine

@[simp] theorem Memory.lookup_head (c : Host.Cell) (m : Memory) : Memory.lookup (c :: m) c.1 = c.2 := by
  simp [Memory.lookup]

theorem Memory.lookup_cons_ne {c : Host.Cell} {k : Nat} (m : Memory) (h : c.1 ≠ k) :
    Memory.lookup (c :: m) k = Memory.lookup m k := by
  simp [Memory.lookup, h]

/-- Addresses rise in the canonical form, so one below its lower bound is not listed. -/
theorem Memory.lookup_of_lt {m : Memory} {lo k : Nat} (h : Memory.wfFrom lo m = true) (hk : k < lo) :
    Memory.lookup m k = Memory.unlisted := by
  induction m generalizing lo with
  | nil => rfl
  | cons c m ih =>
    obtain ⟨hlo, -, -, htail⟩ := Memory.wfFrom_cons.1 h
    rw [Memory.lookup_cons_ne m (by omega)]
    exact ih htail (by omega)

/-- The head cell of one list forces the other list's first address not to lie above it, because no cell holds what an
unlisted address reads as. -/
theorem Memory.head_le_of_lookup_eq {c c' : Host.Cell} {m m' : Memory} {lo lo' : Nat}
    (h : Memory.wfFrom lo (c :: m) = true) (h' : Memory.wfFrom lo' (c' :: m') = true)
    (heq : ∀ k < 65536, Memory.lookup (c :: m) k = Memory.lookup (c' :: m') k) : c'.1 ≤ c.1 := by
  obtain ⟨-, hlt, hne, -⟩ := Memory.wfFrom_cons.1 h
  obtain ⟨-, hrest'⟩ := Memory.wfFrom_cons.1 h'
  by_contra hbelow
  have hunlisted : Memory.lookup (c' :: m') c.1 = Memory.unlisted :=
    Memory.lookup_of_lt (Memory.wfFrom_cons.2 ⟨le_refl c'.1, hrest'⟩) (by omega)
  exact hne (by rw [← Memory.lookup_head c m, heq c.1 hlt, hunlisted])

/-- Canonical lists that agree at every address are the same list. -/
theorem Memory.eq_of_lookup_eq {m m' : Memory} {lo lo' : Nat} (h : Memory.wfFrom lo m = true)
    (h' : Memory.wfFrom lo' m' = true) (heq : ∀ k < 65536, Memory.lookup m k = Memory.lookup m' k) : m = m' := by
  induction m generalizing lo m' lo' with
  | nil =>
    cases m' with
    | nil => rfl
    | cons c' m' =>
      obtain ⟨-, hlt, hne, -⟩ := Memory.wfFrom_cons.1 h'
      exact absurd ((Memory.lookup_head c' m').symm.trans (heq c'.1 hlt).symm) hne
  | cons c m ih =>
    obtain ⟨-, hlt, hne, htail⟩ := Memory.wfFrom_cons.1 h
    cases m' with
    | nil => exact absurd ((Memory.lookup_head c m).symm.trans (heq c.1 hlt)) hne
    | cons c' m' =>
      obtain ⟨-, -, -, htail'⟩ := Memory.wfFrom_cons.1 h'
      have haddr : c.1 = c'.1 :=
        le_antisymm (Memory.head_le_of_lookup_eq h' h fun k hk => (heq k hk).symm)
          (Memory.head_le_of_lookup_eq h h' heq)
      have hbyte : c.2 = c'.2 := by
        rw [← Memory.lookup_head c m, heq c.1 hlt, haddr, Memory.lookup_head]
      have hrest : m = m' := by
        refine ih htail htail' fun k hk => ?_
        by_cases hkc : c.1 = k
        · rw [Memory.lookup_of_lt htail (by omega), Memory.lookup_of_lt htail' (by omega)]
        · have := heq k hk
          rwa [Memory.lookup_cons_ne m hkc, Memory.lookup_cons_ne m' (haddr ▸ hkc)] at this
      rw [Prod.ext haddr hbyte, hrest]

/-- Canonical memories that read alike are the same data. -/
theorem Memory.eq_of_read_eq {m m' : Memory} (h : Memory.wf m = true) (h' : Memory.wf m' = true)
    (heq : ∀ a, Memory.read m a = Memory.read m' a) : m = m' := by
  refine Memory.eq_of_lookup_eq h h' fun k hk => ?_
  simpa [Memory.read, Nat.mod_eq_of_lt hk] using heq (BitVec.ofNat 16 k)

/-- Any content of the addresses below `n` is reached by writing its bytes one after the other into the empty list. -/
theorem Memory.exists_wf_read_below (mem0 : Addr → Byte) (n : Nat) :
    ∃ m, Memory.wf m = true ∧ ∀ a : Addr, a.toNat < n → Memory.read m a = mem0 a := by
  induction n with
  | zero => exact ⟨[], rfl, fun a ha => absurd ha (Nat.not_lt_zero _)⟩
  | succ n ih =>
    obtain ⟨m, hwf, hread⟩ := ih
    refine ⟨Memory.write m (BitVec.ofNat 16 n) (mem0 (BitVec.ofNat 16 n)), Memory.wf_write _ _ hwf, fun a ha => ?_⟩
    by_cases htop : a = BitVec.ofNat 16 n
    · rw [htop, Memory.read_write_same]
    · have hn : a.toNat ≠ n := fun h => htop (by simp [← h])
      rw [Memory.read_write_ne m _ htop, hread a (by omega)]

/-- Settles O22: the bytes of `mem0` written one by one give a canonical memory, and canonical memories that read alike
are equal. -/
theorem everyMem0IsOneCanonicalMemory : Obligations.EveryMem0IsOneCanonicalMemory := by
  intro mem0
  obtain ⟨m, hwf, hread⟩ := Memory.exists_wf_read_below mem0 65536
  have hmem0 : ∀ a, Memory.read m a = mem0 a := fun a => hread a a.isLt
  exact ⟨m, ⟨hwf, hmem0⟩, fun m' hwf' hread' =>
    Memory.eq_of_read_eq hwf' hwf fun a => (hread' a).trans (hmem0 a).symm⟩

end Sys2Proof.Machine
end

section
/-! What an instruction sends is added to the ports' histories, and the histories have no other part in it (00_scope.md
R11, R12; log entry 4). -/

namespace Sys2Proof.Machine

/-- The state with other port histories. -/
def State.withPorts (s : State) (o : List OutEvent) (g : List DiagEvent) : State := { s with out := o, diag := g }

theorem State.withPorts_self (s : State) : s.withPorts s.out s.diag = s := rfl

/-- From `s` with any port histories, `f` appends the events `o'` and `g'` and leaves the rest as it does from `s`. -/
def AppendsEvents (f : State → Result) (s : State) (o' : List OutEvent) (g' : List DiagEvent) : Prop :=
  ∃ t, f s = .next t ∧ ∀ o g, f (s.withPorts o g) = .next (t.withPorts (o ++ o') (g ++ g'))

/-- What commutes with a change of the histories sends nothing. -/
theorem AppendsEvents.of_silent {f : State → Result} {s t : State} (h : f s = .next t)
    (hsilent : ∀ o g, f (s.withPorts o g) = .next (t.withPorts o g)) : AppendsEvents f s [] [] :=
  ⟨t, h, fun o g => by simpa using hsilent o g⟩

/-- The histories of `s` are one case of any histories, so the events are appended to what `s` holds. -/
theorem AppendsEvents.next {f : State → Result} {s : State} {o' : List OutEvent} {g' : List DiagEvent}
    (h : AppendsEvents f s o' g') :
    ∃ t, f s = .next t ∧ t.out = s.out ++ o' ∧ t.diag = s.diag ++ g' ∧
      ∀ o g, f (s.withPorts o g) = .next (t.withPorts (o ++ o') (g ++ g')) := by
  obtain ⟨t, hnext, happ⟩ := h
  have ht : t = t.withPorts (s.out ++ o') (s.diag ++ g') := by
    have hself := happ s.out s.diag
    rw [State.withPorts_self, hnext] at hself
    exact Host.Outcome.next.inj hself
  exact ⟨t, hnext, congrArg State.out ht, congrArg State.diag ht, happ⟩

/-- `Emit(e)` of an event that does not depend on the histories sends that event (00_scope.md R10, R11). -/
theorem appendsEvents_emit {f : State → Result} {s : State} {e : OutEvent}
    (hf : ∀ o g, f (s.withPorts o g) = .next ((s.withPorts o g).emit e)) : AppendsEvents f s [e] [] :=
  ⟨s.emit e, hf s.out s.diag, fun o g => by rw [hf, List.append_nil]; rfl⟩

/-- The abnormal event sends one diagnostic event (60_exceptions.md R201). -/
theorem appendsEvents_unrecognized (op : Byte) (s : State) :
    AppendsEvents (exec (.unrecognized op)) s [] [.unknownOpcode op] :=
  ⟨s.unknownOpcode op, rfl, fun o g => by rw [List.append_nil]; rfl⟩

/-- OUT, OUTP, OUTA and the unrecognized opcodes send one event each; every other instruction commutes with a change of
the histories (60_exceptions.md R204). -/
theorem exec_appendsEvents (i : Instr) (s : State) : ∃ o' g', AppendsEvents (exec i) s o' g' := by
  cases i with
  | out r => exact ⟨_, _, appendsEvents_emit (e := .dec8 (s.getReg r)) fun _ _ => rfl⟩
  | outp p => exact ⟨_, _, appendsEvents_emit (e := .dec16 (s.getPair p)) fun _ _ => rfl⟩
  | outa r => exact ⟨_, _, appendsEvents_emit (e := .char (s.getReg r)) fun _ _ => rfl⟩
  | unrecognized op => exact ⟨_, _, appendsEvents_unrecognized op s⟩
  | _ => exact ⟨_, _, .of_silent rfl fun _ _ => rfl⟩

/-- The fetch neither reads nor changes the histories (30_encoding.md R84). -/
theorem State.fetchInstr_withPorts (s : State) (o : List OutEvent) (g : List DiagEvent) :
    (s.withPorts o g).fetchInstr = (s.fetchInstr.1, s.fetchInstr.2.withPorts o g) := by
  refine Prod.ext ?_ ?_
  · simp only [State.fetchInstr_fst]; rfl
  · simp only [State.fetchInstr_snd]; rfl

/-- A Running core's Step appends what the fetched instruction appends. -/
theorem step_appendsEvents {s : State} (hs : s.halted = false) : ∃ o' g', AppendsEvents step s o' g' := by
  obtain ⟨o', g', t, hexec, happ⟩ := exec_appendsEvents s.fetchInstr.1 s.fetchInstr.2
  refine ⟨o', g', t, by rw [step_running hs, hexec], fun o g => ?_⟩
  rw [step_running (s := s.withPorts o g) hs, State.fetchInstr_withPorts, happ]

/-- Settles O52: a Step appends events that do not depend on the histories. -/
theorem sentEventsAreUnobservable : Obligations.SentEventsAreUnobservable := by
  intro s o g hs
  obtain ⟨o', g', happends⟩ := step_appendsEvents hs
  obtain ⟨t, hstep, hout, hdiag, happ⟩ := happends.next
  exact ⟨t, o', g', hstep, hout, hdiag, happ o g⟩

end Sys2Proof.Machine
end

section
/-! What a Step can do: the effect that each opcode value fixes, as one of fourteen shared operations on the state after the
fetch (30_encoding.md R80, R83). The whole-machine rules of 10_state.md are read off these cases. -/

namespace Sys2Proof.Machine

/-- `t` is a state that an instruction with opcode byte `op` can leave when it runs on `s`, the state after the fetch. -/
inductive Effect (op : Byte) (s : State) : State → Prop
  /-- NOP (40_machine_control.md R100) -/
  | nop (hop : op = 0x00#8) : Effect op s s
  /-- HLT (R101) -/
  | halt (hop : op = 0x01#8) : Effect op s s.halt
  /-- LDI, LD, MOV, LDIR, LDIRP (41_data_transfer.md) -/
  | load (hop : op ∈ [0x02#8, 0x03#8, 0x05#8, 0x0E#8, 0x10#8]) (d : Reg) (v : Byte) : Effect op s (s.setReg d v)
  /-- ST, STIR, STIRP (41_data_transfer.md) -/
  | store (hop : op ∈ [0x04#8, 0x0F#8, 0x11#8]) (a : Addr) (v : Byte) : Effect op s (s.memWrite a v)
  /-- ADD, ADC, ADDI (42_alu.md R131) -/
  | sum8 (hop : op ∈ [0x06#8, 0x07#8, 0x13#8]) (d : Reg) (q : Sum8) : Effect op s (s.putSum8 d q)
  /-- ADDIW (R134) -/
  | sum16 (hop : op = 0x12#8) (p : Pair) (q : Sum16) : Effect op s (s.putSum16 p q)
  /-- AND, OR, NOT, XOR (R132) -/
  | logic (hop : op ∈ [0x08#8, 0x16#8, 0x17#8, 0x18#8]) (d : Reg) (r : Byte) : Effect op s (s.putLogic d r)
  /-- CPI (R133) -/
  | compare (hop : op = 0x0B#8) (r : Byte) : Effect op s (s.setLogicFlags r)
  /-- JMP (43_control_transfer.md R160) -/
  | jump (hop : op = 0x09#8) (tgt : BitVec 15) : Effect op s (s.setPc (targetAddr tgt))
  /-- BEQ, BGT, BLT (R161 to R163) -/
  | branch (hop : op ∈ [0x0C#8, 0x0D#8, 0x19#8]) (cond : Bool) (tgt : BitVec 15) : Effect op s (s.branchIf cond tgt)
  /-- CALL (R164) -/
  | call (hop : op = 0x20#8) (tgt : BitVec 15) : Effect op s ((s.push16 s.pc).setPc (targetAddr tgt))
  /-- RET (R165) -/
  | ret (hop : op = 0x21#8) : Effect op s (s.pop16.2.setPc s.pop16.1)
  /-- OUT, OUTP, OUTA (44_output.md) -/
  | emit (hop : op ∈ [0x0A#8, 0x14#8, 0x15#8]) (e : OutEvent) : Effect op s (s.emit e)
  /-- an unrecognized opcode (40_machine_control.md R102) -/
  | unrecognized (hop : recognizedOpcode op = false) : Effect op s (s.unknownOpcode op)

/-- Every well-formed instruction completes, with an effect that its opcode admits. -/
theorem exec_effect {i : Instr} (hwf : WellFormed i) (s : State) :
    ∃ t, exec i s = .next t ∧ Effect (opcodeOf i) s t := by
  cases i with
  | nop => exact ⟨_, rfl, .nop rfl⟩
  | hlt => exact ⟨_, rfl, .halt rfl⟩
  | ldi | ld | mov | ldir | ldirp => exact ⟨_, rfl, .load (by simp [opcodeOf, encode]) _ _⟩
  | st | stir | stirp => exact ⟨_, rfl, .store (by simp [opcodeOf, encode]) _ _⟩
  | add | adc | addi => exact ⟨_, rfl, .sum8 (by simp [opcodeOf, encode]) _ _⟩
  | addiw => exact ⟨_, rfl, .sum16 rfl _ _⟩
  | and | or | not | xor => exact ⟨_, rfl, .logic (by simp [opcodeOf, encode]) _ _⟩
  | cpi => exact ⟨_, rfl, .compare rfl _⟩
  | jmp => exact ⟨_, rfl, .jump rfl _⟩
  | beq | bgt | blt => exact ⟨_, rfl, .branch (by simp [opcodeOf, encode]) _ _⟩
  | call => exact ⟨_, rfl, .call rfl _⟩
  | ret => exact ⟨_, rfl, .ret rfl⟩
  | out | outp | outa => exact ⟨_, rfl, .emit (by simp [opcodeOf, encode]) _⟩
  | unrecognized op => exact ⟨_, rfl, .unrecognized (by simpa [WellFormed, Instr.wf, opcodeOf, encode] using hwf)⟩

/-- Decoding keeps the opcode byte (30_encoding.md R80, R81). -/
theorem opcodeOf_decodeOp (b0 b1 b2 b3 : Byte) : opcodeOf (decodeOp b0 b1 b2 b3) = b0 := by
  unfold decodeOp
  split <;> simp_all [opcodeOf, encode, BitVec.toNat_eq]

theorem recognizedOpcode_eq_false {op : Byte} (hlow : 0x19 < op.toNat) (h20 : op.toNat ≠ 0x20) (h21 : op.toNat ≠ 0x21) :
    recognizedOpcode op = false := by
  simpa [recognizedOpcode, hlow, BitVec.toNat_eq] using ⟨h20, h21⟩

/-- A decoded instruction is well-formed: only the decoder's last row, reached by no opcode of the table, gives
`unrecognized` (R81). -/
theorem wellFormed_decodeOp (b0 b1 b2 b3 : Byte) : WellFormed (decodeOp b0 b1 b2 b3) := by
  unfold decodeOp
  split
  case h_29 =>
    have hlow : 0x19 < b0.toNat := by grind
    simp [WellFormed, Instr.wf, recognizedOpcode_eq_false hlow ‹_› ‹_›]
  all_goals rfl

/-- A Running core takes a Step: the effect of the opcode at pc on the state after the fetch (R83, R86). -/
theorem step_effect {s : State} (hs : s.halted = false) :
    ∃ t u, step s = .next t ∧ FetchedFrom s u ∧ Effect (s.memRead s.pc) u t := by
  have hwf : WellFormed s.fetchInstr.1 := by rw [State.fetchInstr_fst]; exact wellFormed_decodeOp _ _ _ _
  obtain ⟨t, hexec, heffect⟩ := exec_effect hwf s.fetchInstr.2
  rw [State.fetchInstr_fst, opcodeOf_decodeOp] at heffect
  exact ⟨t, _, (step_running hs).trans hexec, s.fetchInstr_fetched, heffect⟩

end Sys2Proof.Machine
end

section
/-! The invariant: canonical memory and F's unwritten bits at 0 (10_state.md R33, R35; log entries 1 and 6). -/

namespace Sys2Proof.Machine

variable {op : Byte} {s t : State}

/-- No effect writes I or bits 7:5 of F (10_state.md R33, R35). -/
theorem Effect.f_reserved (h : Effect op s t) : t.f &&& 0xE4#8 = s.f &&& 0xE4#8 := by
  cases h with
  | sum8 | sum16 | logic | compare => simp [flagSet_reserved]
  | _ => rfl

/-- Only the stores and CALL write memory, and a write keeps the canonical form (20_memory.md R55). -/
theorem Effect.mem_wf (h : Effect op s t) (hwf : Memory.wf s.mem = true) : Memory.wf t.mem = true := by
  cases h with
  | store _ a v => exact Memory.wf_write a v hwf
  | call => exact Memory.wf_write _ _ (Memory.wf_write _ _ hwf)
  | _ => exact hwf

theorem Effect.inv (h : Effect op s t) (hs : Inv s) : Inv t :=
  ⟨h.mem_wf hs.1, h.f_reserved.trans hs.2⟩

/-- The fetch leaves memory and F alone (30_encoding.md R84). -/
theorem FetchedFrom.inv (h : FetchedFrom s t) (hs : Inv s) : Inv t := by
  obtain ⟨-, -, hf, -, -, hmem, -⟩ := h
  simpa only [Inv, State.reservedClear, hf, hmem] using hs

/-- Settles O49: the fetch keeps the invariant, and so does the effect of every opcode. -/
theorem everyStepKeepsTheInvariant : Obligations.EveryStepKeepsTheInvariant := by
  intro s t hinv hstep
  obtain ⟨hrun, -⟩ := step_inversion hstep
  obtain ⟨t', u, hstep', hfetch, heffect⟩ := step_effect hrun
  obtain rfl : t = t' := Host.Outcome.next.inj (hstep.symm.trans hstep')
  exact heffect.inv (hfetch.inv hinv)

/-- The reset value of F has no bit set. -/
theorem reservedClear_zero (h : s.f = 0x00#8) : s.reservedClear := by
  simp [State.reservedClear, h]

/-- Settles O48: F is 0 in all three states, and each memory is canonical, the launch's because a load keeps the form. -/
theorem invariantHoldsAtReset : Obligations.InvariantHoldsAtReset := by
  refine ⟨⟨Memory.wf_reset, reservedClear_zero rfl⟩, fun s hwf => ⟨_, rfl, hwf, reservedClear_zero rfl⟩, ?_⟩
  intro mem0 program hwf hlen
  exact ⟨_, if_neg (by omega), Memory.wf_load _ _ hwf, reservedClear_zero rfl⟩

/-- Settles O2: the table of 10_state.md R45 is the definition of `State.reset`, read register by register and flag by
flag. -/
theorem resetStateHoldsTheTableValues : Obligations.ResetStateHoldsTheTableValues := by
  refine ⟨fun r => ?_, fun g => ?_, rfl, rfl, rfl, rfl, rfl, rfl, rfl, rfl, rfl⟩
  · cases r <;> rfl
  · cases g <;> rfl

end Sys2Proof.Machine
end

section
/-! What no Step observes: V, I and bits 7:5 of F (10_state.md R33), and the decode scratch (R43). -/

namespace Sys2Proof.Machine

/-- The state with another flag byte. -/
def State.withF (s : State) (g : Byte) : State := { s with f := g }

/-- The flag bytes agree on C, Z and N, the flags that some instruction reads (10_state.md R33). -/
def AgreeOnRead (f g : Byte) : Prop := g &&& 0x0B#8 = f &&& 0x0B#8

theorem flagSet_readBits (f : Byte) (x : Flag) (b : Bool) :
    flagSet f x b &&& 0x0B#8 = flagSet (f &&& 0x0B#8) x b &&& 0x0B#8 := by
  cases x <;> cases b <;> revert f <;> decide

theorem flagGet_readBits (f : Byte) {x : Flag} (hx : 0x0B#8 &&& x.mask = x.mask) :
    flagGet f x = flagGet (f &&& 0x0B#8) x := by
  rw [flagGet, flagGet, BitVec.and_assoc, hx]

/-- A flag write keeps the agreement, whichever flag it writes. -/
theorem AgreeOnRead.flagSet {f g : Byte} (h : AgreeOnRead f g) (x : Flag) (b : Bool) :
    AgreeOnRead (flagSet f x b) (flagSet g x b) := by
  unfold AgreeOnRead
  rw [flagSet_readBits f, flagSet_readBits g, h]

/-- A flag whose bit is one of the three reads alike. -/
theorem AgreeOnRead.flagGet_eq {f g : Byte} (h : AgreeOnRead f g) {x : Flag} (hx : 0x0B#8 &&& x.mask = x.mask) :
    flagGet g x = flagGet f x := by
  rw [flagGet_readBits f hx, flagGet_readBits g hx, h]

/-- The flag register is read only through C, by ADC, and through Z and N, by the branches (10_state.md R33). -/
theorem exec_withF (i : Instr) (s : State) {g : Byte} (h : AgreeOnRead s.f g) :
    ∃ t g', exec i s = .next t ∧ exec i (s.withF g) = .next (t.withF g') ∧ AgreeOnRead t.f g' := by
  have hc : (s.withF g).flag .carry = s.flag .carry := h.flagGet_eq rfl
  have hz : (s.withF g).flag .zero = s.flag .zero := h.flagGet_eq rfl
  have hn : (s.withF g).flag .negative = s.flag .negative := h.flagGet_eq rfl
  have hzn (z n : Bool) := (h.flagSet .zero z).flagSet .negative n
  have hczn (c z n : Bool) := ((h.flagSet .carry c).flagSet .zero z).flagSet .negative n
  cases i with
  | add | addi => exact ⟨_, _, rfl, rfl, (hczn _ _ _).flagSet .overflow _⟩
  | adc => exact ⟨_, _, rfl, by simp only [exec, execAdc, hc]; rfl, (hczn _ _ _).flagSet .overflow _⟩
  | addiw => exact ⟨_, _, rfl, rfl, hczn _ _ _⟩
  | and | or | not | xor | cpi => exact ⟨_, _, rfl, rfl, hzn _ _⟩
  | beq => exact ⟨_, g, rfl, by simp only [exec, execBeq, hz]; rfl, h⟩
  | bgt => exact ⟨_, g, rfl, by simp only [exec, execBgt, hn]; rfl, h⟩
  | blt => exact ⟨_, g, rfl, by simp only [exec, execBlt, hn]; rfl, h⟩
  | _ => exact ⟨_, g, rfl, rfl, h⟩

/-- The fetch neither reads nor changes F (30_encoding.md R84). -/
theorem State.fetchInstr_withF (s : State) (g : Byte) :
    (s.withF g).fetchInstr = (s.fetchInstr.1, s.fetchInstr.2.withF g) := by
  refine Prod.ext ?_ ?_
  · simp only [State.fetchInstr_fst]; rfl
  · simp only [State.fetchInstr_snd]; rfl

/-- Settles O50: the fetched instruction is the same, and its effect keeps the agreement on C, Z and N. -/
theorem unreadFlagBitsAreUnobservable : Obligations.UnreadFlagBitsAreUnobservable := by
  intro s g hs hg
  have hagree : AgreeOnRead s.fetchInstr.2.f g := by rw [State.fetchInstr_snd]; exact hg
  obtain ⟨t, g', hexec, hexec', hagree'⟩ := exec_withF s.fetchInstr.1 s.fetchInstr.2 hagree
  have hstep' : step (s.withF g) = .next (t.withF g') := by
    rw [step_running (s := s.withF g) hs, State.fetchInstr_withF, hexec']
  exact ⟨t, g', by rw [step_running hs, hexec], hstep', hagree'⟩

/-- The fetch reads nothing of the scratch and overwrites all of it (10_state.md R43). -/
theorem State.fetchInstr_scratch (s : State) (h l : Byte) (m : Word) :
    ({ s with mdrh := h, mdrl := l, mar := m } : State).fetchInstr = s.fetchInstr := by
  refine Prod.ext ?_ ?_
  · simp only [State.fetchInstr_fst]; rfl
  · simp only [State.fetchInstr_snd]; rfl

/-- Settles O51: a Step is the effect of what the fetch gives, and the fetch gives the same. -/
theorem scratchIsUnobservable : Obligations.ScratchIsUnobservable := by
  intro s h l m
  simp only [step, State.fetchInstr_scratch]

end Sys2Proof.Machine
end

section
/-! The run state (10_state.md R41, R42): HLT and the unrecognized opcodes alone end a Step in the state Halted. -/

namespace Sys2Proof.Machine

/-- HLT and the unrecognized opcodes set `halted`; every other instruction keeps it (10_state.md R41). -/
theorem exec_halted_iff (i : Instr) (s : State) :
    ∃ t, exec i s = .next t ∧
      (t.halted = true ↔ s.halted = true ∨ i = .hlt ∨ ∃ op, i = .unrecognized op) := by
  cases i with
  | hlt => exact ⟨s.halt, rfl, by simp⟩
  | unrecognized op => exact ⟨s.unknownOpcode op, rfl, by simp⟩
  | _ => exact ⟨_, rfl, by simp⟩

/-- The reset input leads to Running (10_state.md R42; 70_reset_and_hazards.md R230). -/
theorem drive_reset_running (s : State) : ∃ t, drive .reset s = .next t ∧ t.halted = false :=
  ⟨s.applyReset, rfl, rfl⟩

/-- Settles O4, from what each instruction does to `halted` and the inversion of a Step. -/
theorem onlyHltAndUnrecognizedSetHalted : Obligations.OnlyHltAndUnrecognizedSetHalted :=
  ⟨rfl, exec_halted_iff, fun _ _ hstep => (step_inversion hstep).1, drive_reset_running⟩

/-- An effect is HLT's, or that of an unrecognized opcode, or it keeps the run state and the diagnostic port. -/
theorem Effect.halts_or_continues {op : Byte} {s t : State} (h : Effect op s t) :
    (op = 0x01#8 ∧ t = s.halt) ∨ (recognizedOpcode op = false ∧ t = s.unknownOpcode op) ∨
      ((op ≠ 0x01#8 ∧ recognizedOpcode op = true) ∧ t.halted = s.halted ∧ t.diag = s.diag) := by
  cases h with
  | halt hop => exact .inl ⟨hop, rfl⟩
  | unrecognized hop => exact .inr (.inl ⟨hop, rfl⟩)
  | nop hop | load hop | store hop | sum8 hop | sum16 hop | logic hop | compare hop | jump hop | branch hop | call hop
  | ret hop | emit hop => exact .inr (.inr ⟨by revert op; decide, rfl, rfl⟩)

/-- What a Running core's Step does to the run state and the diagnostic port (10_state.md R42). -/
theorem step_halted_iff {s : State} (hs : s.halted = false) :
    ∃ t, step s = .next t ∧
      (t.halted = true ↔ s.memRead s.pc = 0x01#8 ∨ recognizedOpcode (s.memRead s.pc) = false) ∧
      (recognizedOpcode (s.memRead s.pc) = true → t.diag = s.diag) ∧
      (recognizedOpcode (s.memRead s.pc) = false → t.diag = s.diag ++ [.unknownOpcode (s.memRead s.pc)]) := by
  obtain ⟨t, u, hstep, ⟨-, -, -, -, hhalted, -, ⟨-, hdiag⟩, -⟩, heffect⟩ := step_effect hs
  refine ⟨t, hstep, ?_⟩
  rw [← hdiag]
  obtain ⟨hop, rfl⟩ | ⟨hop, rfl⟩ | ⟨⟨hop, hrec⟩, hkeep, hdiag'⟩ := heffect.halts_or_continues
  · simp [hop, show recognizedOpcode 0x01#8 = true from rfl]
  · simp [hop]
  · simp [hop, hrec, hkeep, hdiag', hhalted, hs]

/-- Settles O5: the Running Step by its opcode, the other transitions by definition. -/
theorem runningStepsAndHaltedDoesNot : Obligations.RunningStepsAndHaltedDoesNot :=
  ⟨rfl, fun _ => step_halted, fun _ => step_halted_iff, drive_reset_running⟩

end Sys2Proof.Machine
end

section
/-! The whole-machine rules of 10_state.md, read off the cases of `Effect`: where pc ends (R29, R30), what moves sp (R36),
and which opcodes write a flag (R33 to R35) or a register (R24). -/

namespace Sys2Proof.Machine

variable {op : Byte} {s t : State}

/-! ### The transfers' effects, from their opcodes -/

theorem Effect.jump_inversion (h : Effect 0x09#8 s t) : ∃ tgt, t = s.setPc (targetAddr tgt) := by
  cases h with
  | jump _ tgt => exact ⟨tgt, rfl⟩
  | _ => contradiction

theorem Effect.call_inversion (h : Effect 0x20#8 s t) : ∃ tgt, t = (s.push16 s.pc).setPc (targetAddr tgt) := by
  cases h with
  | call _ tgt => exact ⟨tgt, rfl⟩
  | _ => contradiction

theorem Effect.ret_inversion (h : Effect 0x21#8 s t) : t = s.pop16.2.setPc s.pop16.1 := by
  cases h with
  | ret => rfl
  | _ => contradiction

/-! ### pc -/

/-- An instruction that is no control transfer leaves pc where the fetch left it (10_state.md R29). -/
theorem Effect.pc_eq (h : Effect op s t) (hop : op ∉ [0x09#8, 0x0C#8, 0x0D#8, 0x19#8, 0x20#8, 0x21#8]) :
    t.pc = s.pc := by
  cases h with
  | jump hop' | branch hop' | call hop' | ret hop' => simp_all
  | _ => rfl

/-- A control target has 15 bits (30_encoding.md R78). -/
theorem targetAddr_lt (tgt : BitVec 15) : (targetAddr tgt).toNat < 0x8000 := by
  rw [targetAddr, BitVec.zeroExtend, BitVec.toNat_setWidth_of_le (by decide)]
  exact tgt.isLt

/-- JMP and CALL reach the lower half of the address space only (10_state.md R30). -/
theorem Effect.pc_lt (h : Effect op s t) (hop : op ∈ [0x09#8, 0x20#8]) : t.pc.toNat < 0x8000 := by
  obtain rfl | rfl : op = 0x09#8 ∨ op = 0x20#8 := by simpa using hop
  · obtain ⟨tgt, rfl⟩ := h.jump_inversion
    exact targetAddr_lt tgt
  · obtain ⟨tgt, rfl⟩ := h.call_inversion
    exact targetAddr_lt tgt

/-- Settles O43: the fetch moves pc past the instruction, and only a control transfer moves it again. -/
theorem pcEndsAfterTheInstruction : Obligations.PcEndsAfterTheInstruction := by
  intro s hs
  obtain ⟨t, u, hstep, ⟨hpc, -⟩, heffect⟩ := step_effect hs
  refine ⟨t, hstep, fun hop => ?_, heffect.pc_lt⟩
  rw [heffect.pc_eq hop, hpc, Nat.add_assoc]

/-! ### sp -/

theorem Effect.sp_eq (h : Effect op s t) (hcall : op ≠ 0x20#8) (hret : op ≠ 0x21#8) : t.sp = s.sp := by
  cases h with
  | call hop => exact absurd hop hcall
  | ret hop => exact absurd hop hret
  | _ => rfl

/-- A 16-bit push lowers sp by 2, modulo 2^16 (10_state.md R36, R39). -/
theorem State.push16_sp_toNat (s : State) (w : Word) : (s.push16 w).sp.toNat = (s.sp.toNat + 65534) % 65536 := by
  rw [State.push16_sp]
  bv_omega

/-- A 16-bit pop raises sp by 2, modulo 2^16 (10_state.md R36, R39). -/
theorem State.pop16_sp_toNat (s : State) : s.pop16.2.sp.toNat = (s.sp.toNat + 2) % 65536 := by
  simp [BitVec.toNat_add]

/-- Settles O44: the fetch leaves sp alone, CALL's effect pushes a word, RET's pops one, and no other effect moves sp. -/
theorem onlyCallAndRetMoveSp : Obligations.OnlyCallAndRetMoveSp := by
  intro s hs
  obtain ⟨t, u, hstep, ⟨-, -, -, hsp, -⟩, heffect⟩ := step_effect hs
  rw [← hsp]
  refine ⟨t, hstep, fun hop => ?_, fun hop => ?_, heffect.sp_eq⟩
  · rw [hop] at heffect
    obtain ⟨tgt, rfl⟩ := heffect.call_inversion
    exact u.push16_sp_toNat u.pc
  · rw [hop] at heffect
    obtain rfl := heffect.ret_inversion
    exact u.pop16_sp_toNat

/-! ### Flags -/

/-- The opcodes that the flag table lets write a flag (10_state.md R33 to R35). -/
def Flag.writers : Flag → List Byte
  | .carry => [0x06#8, 0x07#8, 0x12#8, 0x13#8]
  | .zero | .negative => [0x06#8, 0x07#8, 0x08#8, 0x0B#8, 0x12#8, 0x13#8, 0x16#8, 0x17#8, 0x18#8]
  | .overflow => [0x06#8, 0x07#8, 0x13#8]
  | .interruptDisable => []

/-- A flag is kept by every opcode that is not one of its writers (10_state.md R34). -/
theorem Effect.flag_eq {g : Flag} (h : Effect op s t) (hop : op ∉ g.writers) : t.flag g = s.flag g := by
  cases h with
  | sum8 | sum16 | logic | compare =>
    -- either the operation keeps `g`, or its opcode is one of `g`'s writers
    cases g <;> simp_all [Flag.writers, State.flag_putSum8, State.flag_putSum16, State.flag_putLogic,
      State.flag_setLogicFlags]
  | _ => rfl

/-- Settles O45: the fetch leaves F alone, and an effect writes a flag only if its opcode is one of the flag's writers. -/
theorem flagsAreWrittenOnlyByTheirInstructions : Obligations.FlagsAreWrittenOnlyByTheirInstructions := by
  intro s hs
  obtain ⟨t, u, hstep, ⟨-, -, hf, -⟩, heffect⟩ := step_effect hs
  have hflag (g : Flag) (hop : s.memRead s.pc ∉ g.writers) : t.flag g = s.flag g :=
    (heffect.flag_eq hop).trans (congrArg (flagGet · g) hf)
  have hhigh : t.f &&& 0xE0#8 = s.f &&& 0xE0#8 := by
    simpa [BitVec.and_assoc, hf] using congrArg (· &&& 0xE0#8) heffect.f_reserved
  exact ⟨t, hstep, hflag .carry, fun hop => ⟨hflag .zero hop, hflag .negative hop⟩, hflag .overflow,
    hflag .interruptDisable List.not_mem_nil, hhigh⟩

/-! ### General registers -/

/-- The register file is kept by the opcodes that the register table gives no written register (10_state.md R24). -/
theorem Effect.regs_eq (h : Effect op s t) (hop : op ∉ [0x02#8, 0x03#8, 0x05#8, 0x06#8, 0x07#8, 0x08#8, 0x0E#8, 0x10#8,
    0x12#8, 0x13#8, 0x16#8, 0x17#8, 0x18#8]) : t.regs = s.regs := by
  cases h with
  | load hop' | sum8 hop' | sum16 hop' | logic hop' => simp_all
  | _ => rfl

theorem keepsRegs_of_regs_eq (h : t.regs = s.regs) (ds : List Reg) : KeepsRegs ds s t := fun r _ => by
  rw [State.getReg, h, State.getReg]

/-- Settles O46: the fetch leaves the registers alone, and so does the effect of every opcode outside the list. -/
theorem registersAreWrittenOnlyByTheirInstructions : Obligations.RegistersAreWrittenOnlyByTheirInstructions := by
  intro s hs
  obtain ⟨t, u, hstep, ⟨-, hregs, -⟩, heffect⟩ := step_effect hs
  exact ⟨t, hstep, fun hop => keepsRegs_of_regs_eq ((heffect.regs_eq hop).trans hregs) []⟩

end Sys2Proof.Machine
end

section
/-! Register pairs and the stack in numbers (10_state.md R25, R26, R37 to R39). -/

namespace Sys2Proof.Machine

/-! ### Pairs -/

/-- A pair is 256 times its high register plus its low one (10_state.md R25). -/
theorem State.toNat_getPair (s : State) (p : Pair) :
    (s.getPair p).toNat = (s.getReg (pairHi p)).toNat * 256 + (s.getReg (pairLo p)).toNat :=
  toNat_joinBytes _ _

/-- What each register reads as after a pair write (10_state.md R26). -/
theorem State.getReg_setPair (s : State) (p : Pair) (v : Word) (r : Reg) :
    (s.setPair p v).getReg r = if r = pairLo p then loByte v else if r = pairHi p then hiByte v else s.getReg r := by
  simp [State.getReg, RegFile.get_set]

theorem State.toNat_getReg_pairHi_setPair (s : State) (p : Pair) (v : Word) :
    ((s.setPair p v).getReg (pairHi p)).toNat = v.toNat / 256 := by
  rw [State.getReg_setPair, if_neg (pairHi_ne_pairLo p p), if_pos rfl, toNat_hiByte]

theorem State.toNat_getReg_pairLo_setPair (s : State) (p : Pair) (v : Word) :
    ((s.setPair p v).getReg (pairLo p)).toNat = v.toNat % 256 := by
  rw [State.getReg_setPair, if_pos rfl, toNat_loByte]

theorem State.keepsRegs_setPair (s : State) (p : Pair) (v : Word) :
    KeepsRegs [pairHi p, pairLo p] s (s.setPair p v) := by
  intro r hr
  obtain ⟨hhi, hlo⟩ : r ≠ pairHi p ∧ r ≠ pairLo p := by simpa using hr
  rw [State.getReg_setPair, if_neg hlo, if_neg hhi]

/-- Settles O18, by the two registers of each pair. -/
theorem pairIsHighLowOfItsRegisters : Obligations.PairIsHighLowOfItsRegisters :=
  ⟨fun s => ⟨s.toNat_getPair .p0, s.toNat_getPair .p1⟩, fun s v =>
    ⟨s.toNat_getReg_pairHi_setPair .p0 v, s.toNat_getReg_pairLo_setPair .p0 v, s.keepsRegs_setPair .p0 v,
      s.toNat_getReg_pairHi_setPair .p1 v, s.toNat_getReg_pairLo_setPair .p1 v, s.keepsRegs_setPair .p1 v⟩⟩

/-! ### Stack -/

theorem State.keepsMem_push8 (s : State) (v : Byte) : KeepsMem [s.sp] s (s.push8 v) := by
  intro a ha
  rw [State.memRead_push8, if_neg (by simpa using ha)]

/-- Settles O20: one byte of memory at the old sp for a push, none for a pop, and sp one lower or higher. -/
theorem pushAndPopOfOneByte : Obligations.PushAndPopOfOneByte := by
  intro s v
  refine ⟨⟨?_, ?_, s.keepsMem_push8 v, fun _ _ => rfl, rfl⟩, ?_, rfl, fun _ _ => rfl, fun _ _ => rfl, rfl⟩
  · rw [State.memRead_push8, if_pos rfl]
  · simp [BitVec.toNat_sub, Nat.add_comm]
  · simp [BitVec.toNat_add]

/-- The two bytes of a pushed word lie at different addresses, the wrap included. -/
theorem sp_ne_sp_sub_one (sp : Word) : sp ≠ sp - 1#16 := by
  bv_omega

theorem State.memRead_push16_sp (s : State) (w : Word) : (s.push16 w).memRead s.sp = loByte w := by
  rw [State.memRead_push16, if_neg (sp_ne_sp_sub_one s.sp), if_pos rfl]

theorem State.memRead_push16_sp_sub_one (s : State) (w : Word) :
    (s.push16 w).memRead (s.sp - 1#16) = hiByte w := by
  rw [State.memRead_push16, if_pos rfl]

theorem State.keepsMem_push16 (s : State) (w : Word) : KeepsMem [s.sp, s.sp - 1#16] s (s.push16 w) := by
  intro a ha
  obtain ⟨hlo, hhi⟩ : a ≠ s.sp ∧ a ≠ s.sp - 1#16 := by simpa using ha
  rw [State.memRead_push16, if_neg hhi, if_neg hlo]

/-- A pop undoes the push before it: the high byte is on top (10_state.md R39). -/
theorem State.pop16_push16 (s : State) (w : Word) : (s.push16 w).pop16.1 = w := by
  have hhi : (s.push16 w).sp + 1#16 = s.sp - 1#16 := BitVec.sub_add_cancel _ _
  have hlo : s.sp - 1#16 + 1#16 = s.sp := BitVec.sub_add_cancel _ _
  rw [State.pop16_value, hhi, hlo, State.memRead_push16_sp_sub_one, State.memRead_push16_sp, joinBytes_hi_lo]

/-- Settles O21: where the two bytes of a pushed word lie, and the order in which a pop reads them. -/
theorem popRecoversThePushedWord : Obligations.PopRecoversThePushedWord := by
  intro s w
  refine ⟨?_, ?_, ?_, s.keepsMem_push16 w, s.pop16_push16 w, ?_, ?_⟩
  · rw [State.memRead_push16_sp, toNat_loByte]
  · rw [State.memRead_push16_sp_sub_one, toNat_hiByte]
  · rw [State.push16_sp, BitVec.sub_sub]; rfl
  · simp
  · rw [State.pop16_value, toNat_joinBytes, BitVec.add_assoc]; rfl

end Sys2Proof.Machine
end

section
/-! Memory (20_memory.md): the loaded program (R62), the effective addresses in numbers (R60), what a fetch reads after a
store (R68), and which opcodes write memory or send an event (R55; 00_scope.md R11). -/

namespace Sys2Proof.Machine

variable {op : Byte} {s t : State}

/-! ### The load -/

/-- A load of at most the whole address space never writes an address twice, so the byte at `b` is the one that lies
`b - a` into the loaded list, and beyond the list it is the old one (70_reset_and_hazards.md R234). -/
theorem Memory.read_load (m : Memory) (a b : Addr) (bs : List Byte) (hlen : bs.length ≤ 65536) :
    Memory.read (Memory.load m a bs) b = bs.getD (b - a).toNat (Memory.read m b) := by
  induction bs generalizing m a with
  | nil => rfl
  | cons v vs ih =>
    rw [List.length_cons] at hlen
    rw [Memory.load, ih _ _ (by omega)]
    by_cases hb : b = a
    · have hlast : (b - (a + 1#16)).toNat = 65535 := by bv_omega
      have hfirst : (b - a).toNat = 0 := by bv_omega
      rw [hlast, hfirst, hb, Memory.read_write_same, List.getD_eq_default _ _ (by omega), List.getD_cons_zero]
    · have hnext : (b - a).toNat = (b - (a + 1#16)).toNat + 1 := by bv_omega
      rw [hnext, Memory.read_write_ne m v hb, List.getD_cons_succ]

/-- Settles O7, by the load from address 0. -/
theorem bootOverlaysProgramOnMem0 : Obligations.BootOverlaysProgramOnMem0 := by
  intro mem0 program
  refine ⟨fun hlen => ⟨_, if_neg (by omega), fun a => ?_, rfl⟩, fun hlong => if_pos hlong⟩
  rw [State.memRead, Memory.read_load _ _ _ _ hlen, BitVec.sub_zero]

/-! ### Effective addresses -/

/-- Every data address is the base plus an offset, modulo 2^16 (20_memory.md R53, R60). -/
theorem toNat_dataBase_add (w : Word) : (dataBase + w).toNat = (0x8000 + w.toNat) % 65536 :=
  BitVec.toNat_add dataBase w

/-- An offset below the base does not wrap. -/
theorem toNat_dataBase_add_zeroExtend {n : Nat} (x : BitVec n) (hn : n ≤ 15) :
    (dataBase + x.zeroExtend 16).toNat = 0x8000 + x.toNat := by
  have hx : x.toNat < 2 ^ 15 := x.isLt.trans_le (Nat.pow_le_pow_right (by decide) hn)
  rw [toNat_dataBase_add, BitVec.zeroExtend, BitVec.toNat_setWidth_of_le (by omega)]
  omega

theorem toNat_directAddr (o : BitVec 14) : (directAddr o).toNat = 0x8000 + o.toNat :=
  toNat_dataBase_add_zeroExtend o (by decide)

theorem State.toNat_regIndirectAddr (s : State) (a : Reg) :
    (s.regIndirectAddr a).toNat = 0x8000 + (s.getReg a).toNat :=
  toNat_dataBase_add_zeroExtend (s.getReg a) (by decide)

theorem State.toNat_pairIndirectAddr (s : State) (p : Pair) :
    (s.pairIndirectAddr p).toNat = (0x8000 + (s.getPair p).toNat) % 65536 :=
  toNat_dataBase_add (s.getPair p)

theorem toNat_targetAddr (tgt : BitVec 15) : (targetAddr tgt).toNat = tgt.toNat :=
  BitVec.toNat_setWidth_of_le (by decide)

/-- Settles O19, mode by mode; each range is that of its operand field. -/
theorem effectiveAddressesAreAsTabulated : Obligations.EffectiveAddressesAreAsTabulated := by
  refine ⟨fun _ => rfl, fun o => ⟨toNat_directAddr o, ?_⟩, fun s a => ⟨s.toNat_regIndirectAddr a, ?_⟩,
    State.toNat_pairIndirectAddr, fun s v => ⟨?_, rfl⟩, fun tgt => ⟨toNat_targetAddr tgt, ?_⟩⟩
  · have := o.isLt
    rw [toNat_directAddr]
    omega
  · have := (s.getReg a).isLt
    rw [State.toNat_regIndirectAddr]
    omega
  · rw [State.memRead_push8, if_pos rfl]
  · exact Nat.le_of_lt_succ (targetAddr_lt tgt)

/-! ### A fetch after a store -/

/-- A fetch with pc at `a` reads the byte at `a`: there is one memory (20_memory.md R68). -/
theorem State.fetch8_setPc (s : State) (a : Addr) : (s.setPc a).fetch8.1 = s.memRead a := rfl

theorem State.fetch8_setPc_memWrite (s : State) (a : Addr) (v : Byte) :
    ((s.memWrite a v).setPc a).fetch8.1 = v := by
  rw [State.fetch8_setPc, State.memRead, State.memWrite_mem, Memory.read_write_same]

theorem State.memRead_setPc (s : State) (w : Word) (a : Addr) : (s.setPc w).memRead a = s.memRead a := rfl

/-- Settles O23: each store leaves a memory write, and CALL a pushed word. -/
theorem storedBytesAreFetched : Obligations.StoredBytesAreFetched := by
  refine ⟨fun src o s => ⟨_, rfl, s.fetch8_setPc_memWrite _ _⟩, fun src a s => ⟨_, rfl, s.fetch8_setPc_memWrite _ _⟩,
    fun src p s => ⟨_, rfl, s.fetch8_setPc_memWrite _ _⟩, fun tgt s => ⟨_, rfl, ?_, ?_⟩⟩
  · rw [State.fetch8_setPc, State.memRead_setPc, State.memRead_push16_sp, toNat_loByte]
  · rw [State.fetch8_setPc, State.memRead_setPc, State.memRead_push16_sp_sub_one, toNat_hiByte]

/-! ### Which opcodes write memory or send an event -/

/-- Memory is kept by every opcode but the stores' and CALL's (20_memory.md R55). -/
theorem Effect.mem_eq (h : Effect op s t) (hop : op ∉ [0x04#8, 0x0F#8, 0x11#8, 0x20#8]) : t.mem = s.mem := by
  cases h with
  | store hop' | call hop' => simp_all
  | _ => rfl

/-- The output port is kept by every opcode but OUT's, OUTP's and OUTA's (00_scope.md R11). -/
theorem Effect.out_eq (h : Effect op s t) (hop : op ∉ [0x0A#8, 0x14#8, 0x15#8]) : t.out = s.out := by
  cases h with
  | emit hop' => exact absurd hop' hop
  | _ => rfl

/-- The effects of OUT, OUTP and OUTA send one event. -/
theorem Effect.emit_inversion (h : Effect op s t) (hop : op ∈ [0x0A#8, 0x14#8, 0x15#8]) : ∃ e, t = s.emit e := by
  cases h with
  | emit _ e => exact ⟨e, rfl⟩
  | _ => exfalso; revert op; decide

theorem keepsMem_of_mem_eq (h : t.mem = s.mem) (stored : List Addr) : KeepsMem stored s t := fun a _ => by
  rw [State.memRead, h, State.memRead]

/-- Settles O47: the fetch leaves memory and the output port alone, and the effect of the opcode does the rest. -/
theorem memoryAndOutputChangeOnlyByTheirInstructions : Obligations.MemoryAndOutputChangeOnlyByTheirInstructions := by
  intro s hs
  obtain ⟨t, u, hstep, ⟨-, -, -, -, -, hmem, ⟨hout, -⟩, -⟩, heffect⟩ := step_effect hs
  rw [← hout]
  refine ⟨t, hstep, fun hop => keepsMem_of_mem_eq ((heffect.mem_eq hop).trans hmem) [], heffect.out_eq, fun hop => ?_⟩
  obtain ⟨e, rfl⟩ := heffect.emit_inversion hop
  exact ⟨e, rfl⟩

end Sys2Proof.Machine
end

section
/-! Decoding an encoded instruction (30_encoding.md R72, R87): each field is read back from the place where its format puts
it, and the decoder takes from a list exactly the bytes that the opcode fixes. -/

namespace Sys2Proof

open Machine

/-! ### A field read back from its place (R72 to R78) -/

@[simp] theorem Reg.ofBits_toBits (r : Reg) : Reg.ofBits r.toBits = r := by
  cases r <;> rfl

theorem regField_eq_of_extract {b : Byte} {lo : Nat} {r : Reg} (h : b.extractLsb' lo 2 = r.toBits) :
    regField b lo = r := by
  rw [regField, h, Reg.ofBits_toBits]

/-- A register in bits 1:0. -/
@[simp] theorem regField_zero_append (x : BitVec 6) (r : Reg) : regField (x ++ r.toBits) 0 = r :=
  regField_eq_of_extract BitVec.extractLsb'_append_eq_right

/-- A register in bits 3:2. -/
@[simp] theorem regField_two_append (x : BitVec 4) (r : Reg) (y : BitVec 2) : regField (x ++ r.toBits ++ y) 2 = r := by
  apply regField_eq_of_extract
  rw [BitVec.extractLsb'_append_eq_of_le (by decide), BitVec.extractLsb'_append_eq_right]

/-- A register in bits 5:4, above two 2-bit places (FR3, FRN). -/
@[simp] theorem regField_four_append (x : BitVec 2) (r : Reg) (y z : BitVec 2) :
    regField (x ++ r.toBits ++ y ++ z) 4 = r := by
  apply regField_eq_of_extract
  rw [BitVec.extractLsb'_append_eq_of_le (by decide), BitVec.extractLsb'_append_eq_of_le (by decide),
    BitVec.extractLsb'_append_eq_right]

/-- A register in bits 5:4, above three ignored bits and a pair (FPR). -/
@[simp] theorem regField_four_append_pair (x : BitVec 2) (r : Reg) (y : BitVec 3) (z : BitVec 1) :
    regField (x ++ r.toBits ++ y ++ z) 4 = r := by
  apply regField_eq_of_extract
  rw [BitVec.extractLsb'_append_eq_of_le (by decide), BitVec.extractLsb'_append_eq_of_le (by decide),
    BitVec.extractLsb'_append_eq_right]

/-- A register in bits 7:6. -/
@[simp] theorem regField_six_append (r : Reg) (x : BitVec 6) : regField (r.toBits ++ x) 6 = r :=
  regField_eq_of_extract BitVec.extractLsb'_append_eq_left

/-- A pair in bit 0 (R74). -/
@[simp] theorem pairField_append (x : BitVec 7) (p : Pair) : pairField (x ++ p.toBits) = p := by
  have hbit : (x ++ p.toBits).getLsbD 0 = p.toBits.getLsbD 0 := BitVec.getLsbD_append
  rw [pairField, hbit]
  cases p <;> rfl

/-- The offset of format FM (R77). -/
@[simp] theorem offsetField_packFM (x : BitVec 2) (o : BitVec 14) :
    offsetField (x ++ o.extractLsb' 8 6) (o.extractLsb' 0 8) = o := by
  rw [offsetField, BitVec.extractLsb'_append_eq_right]
  exact (BitVec.extractLsb'_append_extractLsb'_eq_extractLsb' rfl).trans BitVec.extractLsb'_eq_self

/-- The target of format FT (R78). -/
@[simp] theorem targetField_packFT (x : BitVec 1) (t : BitVec 15) :
    targetField (x ++ t.extractLsb' 8 7) (t.extractLsb' 0 8) = t := by
  rw [targetField, BitVec.extractLsb'_append_eq_right]
  exact (BitVec.extractLsb'_append_extractLsb'_eq_extractLsb' rfl).trans BitVec.extractLsb'_eq_self

/-! ### The opcodes outside the table (R81) -/

theorem recognizedOpcode_eq_false_iff (op : Byte) :
    recognizedOpcode op = false ↔ 0x1A ≤ op.toNat ∧ op.toNat ≤ 0x1F ∨ 0x22 ≤ op.toNat := by
  simp only [recognizedOpcode, Bool.or_eq_false_iff, decide_eq_false_iff_not, beq_eq_false_iff_ne, ne_eq, BitVec.toNat_eq,
    BitVec.toNat_ofNat]
  omega

/-- An opcode outside R80's table decodes as itself (R81). -/
theorem decodeOp_unrecognized {op : Byte} (h : recognizedOpcode op = false) (b1 b2 b3 : Byte) :
    decodeOp op b1 b2 b3 = .unrecognized op := by
  unfold decodeOp
  split
  case h_29 => rfl
  all_goals simp_all [recognizedOpcode, BitVec.toNat_eq]

theorem decodeOp_eq_unrecognized_iff (op b1 b2 b3 : Byte) :
    decodeOp op b1 b2 b3 = .unrecognized op ↔ recognizedOpcode op = false := by
  refine ⟨fun h => ?_, fun h => decodeOp_unrecognized h b1 b2 b3⟩
  have hwf := wellFormed_decodeOp op b1 b2 b3
  rw [h] at hwf
  simpa [WellFormed, Instr.wf] using hwf

theorem operandCount_unrecognized {op : Byte} (h : recognizedOpcode op = false) : operandCount op = 0 := by
  revert op
  decide

/-! ### The encoding -/

theorem encode_eq_cons (i : Instr) : encode i = opcodeOf i :: (encode i).tail := by
  cases i <;> rfl

theorem length_encode {i : Instr} (hwf : WellFormed i) : (encode i).length = operandCount (opcodeOf i) + 1 := by
  cases i with
  | unrecognized op => exact Laws.EncodedLength.unrecognized op hwf
  | _ => rfl

/-- Every format's fields are read back (R72). -/
theorem decodeOp_encode {i : Instr} (hwf : WellFormed i) :
    decodeOp (opcodeOf i) ((encode i).tail.getD 0 0#8) ((encode i).tail.getD 1 0#8) ((encode i).tail.getD 2 0#8) = i := by
  cases i with
  | nop | hlt | ret => rfl
  | out | outa | mov | ldir | stir | not | ldirp | stirp | outp | ldi | cpi | addi | addiw =>
    simp [decodeOp, opcodeOf, encode]
  | add | adc | and | or | xor => simp [decodeOp, opcodeOf, encode, packFR3]
  | ld | st => simp [decodeOp, opcodeOf, encode, packFM]
  | jmp | beq | bgt | blt | call => simp [decodeOp, opcodeOf, encode, packFT]
  | unrecognized op => exact decodeOp_unrecognized (by simpa [WellFormed, Instr.wf, opcodeOf, encode] using hwf) _ _ _

/-! ### The decoder over a list -/

theorem decode_cons {b0 : Byte} {rest : List Byte} (h : operandCount b0 ≤ rest.length) :
    decode (b0 :: rest) =
      .ok (decodeOp b0 (rest.getD 0 0#8) (rest.getD 1 0#8) (rest.getD 2 0#8), rest.drop (operandCount b0)) := by
  rw [decode, if_neg (by omega)]

/-- The decoder takes the operand bytes its opcode fixes, and looks at no byte after them (R70). -/
theorem decode_cons_append {b0 : Byte} {ops : List Byte} (h : ops.length = operandCount b0) (rest : List Byte) :
    decode (b0 :: (ops ++ rest)) = .ok (decodeOp b0 (ops.getD 0 0#8) (ops.getD 1 0#8) (ops.getD 2 0#8), rest) := by
  have hcount : operandCount b0 ≤ (ops ++ rest).length := by rw [List.length_append]; omega
  have hget (k : Nat) (hk : k + 1 ≤ operandCount b0) : (ops ++ rest).getD k 0#8 = ops.getD k 0#8 :=
    List.getD_append _ _ _ _ (by omega)
  rw [decode_cons hcount, decodeOp_congr (hget 0) (hget 1) (hget 2), List.drop_left' h]

/-- Settles O11: the list starts with the opcode and its operand bytes, and these decode to the instruction. -/
theorem decodeOfEncodeIsTheInstruction : Obligations.DecodeOfEncodeIsTheInstruction := by
  intro i rest hwf
  have hlen : (encode i).tail.length = operandCount (opcodeOf i) := by
    rw [List.length_tail, length_encode hwf, Nat.add_sub_cancel]
  rw [encode_eq_cons, List.cons_append, decode_cons_append hlen, decodeOp_encode hwf]

end Sys2Proof
end

section
/-! Which bits of B1 a decoded instruction depends on (30_encoding.md R72, R79). A field depends on the bits of its mask, and
the mask of a format is the union of the masks of its fields. -/

namespace Sys2Proof

open Machine

variable {b c b1 b2 b3 c1 c2 c3 m n : Byte}

/-! ### Agreement of two bytes on a mask -/

theorem and_eq_and_iff : b &&& m = c &&& m ↔ ∀ i, m.getLsbD i = true → b.getLsbD i = c.getLsbD i := by
  constructor
  · intro h i hi
    simpa [hi] using congrArg (·.getLsbD i) h
  · intro h
    refine BitVec.eq_of_getLsbD_eq fun i _ => ?_
    cases hi : m.getLsbD i with
    | true => simp [hi, h i hi]
    | false => simp [hi]

/-- Two bytes agree on a union of masks exactly when they agree on both. -/
theorem and_or_eq_iff : b &&& (m ||| n) = c &&& (m ||| n) ↔ b &&& m = c &&& m ∧ b &&& n = c &&& n := by
  simp only [and_eq_and_iff, BitVec.getLsbD_or, Bool.or_eq_true, or_imp, forall_and]

/-- The bits of an operand byte that a field of `len` bits from bit `lo` on takes. -/
def fieldMask (lo len : Nat) : Byte := (BitVec.allOnes len).setWidth 8 <<< lo

theorem getLsbD_fieldMask {lo len i : Nat} : (fieldMask lo len).getLsbD i = true ↔ i < 8 ∧ lo ≤ i ∧ i - lo < len := by
  simp only [fieldMask, BitVec.getLsbD_shiftLeft, BitVec.getLsbD_setWidth, BitVec.getLsbD_allOnes, Bool.and_eq_true,
    Bool.not_eq_true', decide_eq_true_eq, decide_eq_false_iff_not]
  omega

/-- A field takes the same value from two bytes exactly when they agree on its mask. -/
theorem extractLsb'_eq_iff {lo len : Nat} :
    b.extractLsb' lo len = c.extractLsb' lo len ↔ b &&& fieldMask lo len = c &&& fieldMask lo len := by
  rw [and_eq_and_iff, BitVec.eq_of_getLsbD_eq_iff]
  simp only [getLsbD_fieldMask, BitVec.getLsbD_extractLsb']
  constructor
  · rintro h i ⟨-, hlo, hlen⟩
    simpa [hlen, Nat.add_sub_of_le hlo] using h (i - lo) hlen
  · intro h i hi
    by_cases hlt : lo + i < 8
    · rw [h (lo + i) ⟨hlt, by omega, by omega⟩]
    · rw [BitVec.getLsbD_of_ge b _ (by omega), BitVec.getLsbD_of_ge c _ (by omega)]

/-! ### The fields -/

theorem Reg.toBits_ofBits (v : BitVec 2) : (Reg.ofBits v).toBits = v := by
  revert v
  decide

theorem Pair.ofBit_inj {x y : Bool} : Pair.ofBit x = Pair.ofBit y ↔ x = y := by
  revert x y
  decide

theorem regField_eq_iff {lo : Nat} : regField b lo = regField c lo ↔ b &&& fieldMask lo 2 = c &&& fieldMask lo 2 := by
  rw [← extractLsb'_eq_iff]
  exact (Function.LeftInverse.injective Reg.toBits_ofBits).eq_iff

theorem pairField_eq_iff : pairField b = pairField c ↔ b &&& 0x01#8 = c &&& 0x01#8 := by
  rw [pairField, pairField, Pair.ofBit_inj, and_eq_and_iff]
  simp [BitVec.getLsbD_one]

theorem append_eq_append_iff {v w : Nat} {x x' : BitVec v} {y y' : BitVec w} : x ++ y = x' ++ y' ↔ x = x' ∧ y = y' := by
  refine ⟨fun h => ⟨?_, ?_⟩, fun ⟨hx, hy⟩ => by rw [hx, hy]⟩
  · rw [← BitVec.extractLsb'_append_eq_left (a := x) (b := y), h, BitVec.extractLsb'_append_eq_left]
  · rw [← BitVec.extractLsb'_append_eq_right (a := x) (b := y), h, BitVec.extractLsb'_append_eq_right]

theorem offsetField_eq_iff :
    offsetField b1 b2 = offsetField c1 c2 ↔ b1 &&& fieldMask 0 6 = c1 &&& fieldMask 0 6 ∧ b2 = c2 := by
  rw [offsetField, offsetField, append_eq_append_iff, extractLsb'_eq_iff]

theorem targetField_eq_iff : targetField b1 b2 = targetField c1 c2 ↔ b1 &&& 0x7F#8 = c1 &&& 0x7F#8 ∧ b2 = c2 := by
  rw [targetField, targetField, append_eq_append_iff, extractLsb'_eq_iff]
  rfl

theorem joinBytes_eq_iff : joinBytes b2 b3 = joinBytes c2 c3 ↔ b2 = c2 ∧ b3 = c3 :=
  append_eq_append_iff

/-! ### The formats: the mask of B1 is the union of the fields' masks (R72) -/

theorem fieldsFR1_eq_iff : regField b 0 = regField c 0 ↔ b &&& 0x03#8 = c &&& 0x03#8 :=
  regField_eq_iff

/-- FR2 and FRA. -/
theorem fieldsFR2_eq_iff :
    regField b 2 = regField c 2 ∧ regField b 0 = regField c 0 ↔ b &&& 0x0F#8 = c &&& 0x0F#8 := by
  rw [regField_eq_iff, regField_eq_iff, ← and_or_eq_iff]
  rfl

theorem fieldsFR3_eq_iff :
    regField b 4 = regField c 4 ∧ regField b 2 = regField c 2 ∧ regField b 0 = regField c 0 ↔
      b &&& 0x3F#8 = c &&& 0x3F#8 := by
  rw [regField_eq_iff, regField_eq_iff, regField_eq_iff, ← and_or_eq_iff, ← and_or_eq_iff]
  rfl

theorem fieldsFRN_eq_iff :
    regField b 4 = regField c 4 ∧ regField b 0 = regField c 0 ↔ b &&& 0x33#8 = c &&& 0x33#8 := by
  rw [regField_eq_iff, regField_eq_iff, ← and_or_eq_iff]
  rfl

theorem fieldsFPR_eq_iff :
    regField b 4 = regField c 4 ∧ pairField b = pairField c ↔ b &&& 0x31#8 = c &&& 0x31#8 := by
  rw [regField_eq_iff, pairField_eq_iff, ← and_or_eq_iff]
  rfl

theorem fieldsFM_eq_iff :
    regField b1 6 = regField c1 6 ∧ offsetField b1 b2 = offsetField c1 c2 ↔
      b1 &&& 0xFF#8 = c1 &&& 0xFF#8 ∧ b2 = c2 := by
  rw [regField_eq_iff, offsetField_eq_iff, ← and_assoc, ← and_or_eq_iff]
  rfl

/-! ### The opcodes of each format -/

/-- With the opcode byte `op`, the decoded instruction depends on the field bits and on no other (R72, R79). -/
def DecodesExactlyFieldBits (op : Byte) : Prop :=
  ∀ b1 b2 b3 c1 c2 c3 : Byte,
    decodeOp op b1 b2 b3 = decodeOp op c1 c2 c3 ↔
      b1 &&& usedB1 op = c1 &&& usedB1 op ∧ (2 ≤ operandCount op → b2 = c2) ∧ (3 ≤ operandCount op → b3 = c3)

theorem decodesExactlyFieldBits_F0 : ∀ op ∈ [0x00#8, 0x01#8, 0x21#8], DecodesExactlyFieldBits op := by
  simp [DecodesExactlyFieldBits, decodeOp, usedB1, operandCount]

theorem decodesExactlyFieldBits_FR1 : ∀ op ∈ [0x0A#8, 0x15#8], DecodesExactlyFieldBits op := by
  simp [DecodesExactlyFieldBits, decodeOp, usedB1, operandCount, fieldsFR1_eq_iff]

theorem decodesExactlyFieldBits_FRI : ∀ op ∈ [0x02#8, 0x0B#8, 0x13#8], DecodesExactlyFieldBits op := by
  simp [DecodesExactlyFieldBits, decodeOp, usedB1, operandCount, fieldsFR1_eq_iff]

theorem decodesExactlyFieldBits_FR2 : ∀ op ∈ [0x05#8, 0x0E#8, 0x0F#8], DecodesExactlyFieldBits op := by
  simp [DecodesExactlyFieldBits, decodeOp, usedB1, operandCount, fieldsFR2_eq_iff]

theorem decodesExactlyFieldBits_FR3 :
    ∀ op ∈ [0x06#8, 0x07#8, 0x08#8, 0x16#8, 0x18#8], DecodesExactlyFieldBits op := by
  simp [DecodesExactlyFieldBits, decodeOp, usedB1, operandCount, fieldsFR3_eq_iff]

theorem decodesExactlyFieldBits_FRN : DecodesExactlyFieldBits 0x17#8 := by
  simp [DecodesExactlyFieldBits, decodeOp, usedB1, operandCount, fieldsFRN_eq_iff]

theorem decodesExactlyFieldBits_FPR : ∀ op ∈ [0x10#8, 0x11#8], DecodesExactlyFieldBits op := by
  simp [DecodesExactlyFieldBits, decodeOp, usedB1, operandCount, fieldsFPR_eq_iff]

theorem decodesExactlyFieldBits_FP : DecodesExactlyFieldBits 0x14#8 := by
  simp [DecodesExactlyFieldBits, decodeOp, usedB1, operandCount, pairField_eq_iff]

theorem decodesExactlyFieldBits_FPW : DecodesExactlyFieldBits 0x12#8 := by
  simp [DecodesExactlyFieldBits, decodeOp, usedB1, operandCount, pairField_eq_iff, joinBytes_eq_iff]

theorem decodesExactlyFieldBits_FM : ∀ op ∈ [0x03#8, 0x04#8], DecodesExactlyFieldBits op := by
  simp [DecodesExactlyFieldBits, decodeOp, usedB1, operandCount, fieldsFM_eq_iff]

theorem decodesExactlyFieldBits_FT :
    ∀ op ∈ [0x09#8, 0x0C#8, 0x0D#8, 0x19#8, 0x20#8], DecodesExactlyFieldBits op := by
  simp [DecodesExactlyFieldBits, decodeOp, usedB1, operandCount, targetField_eq_iff]

theorem usedB1_unrecognized {op : Byte} (h : recognizedOpcode op = false) : usedB1 op = 0x00#8 := by
  revert op
  decide

/-- An unrecognized opcode has no operand byte, so it has no field (R81). -/
theorem decodesExactlyFieldBits_unrecognized {op : Byte} (h : recognizedOpcode op = false) :
    DecodesExactlyFieldBits op := by
  simp [DecodesExactlyFieldBits, decodeOp_unrecognized h, usedB1_unrecognized h, operandCount_unrecognized h]

/-- Every opcode of R80's table has one of the formats of R72. -/
theorem recognizedOpcode_format {op : Byte} (h : recognizedOpcode op = true) :
    op ∈ [0x00#8, 0x01#8, 0x21#8] ∨ op ∈ [0x0A#8, 0x15#8] ∨ op ∈ [0x02#8, 0x0B#8, 0x13#8] ∨
    op ∈ [0x05#8, 0x0E#8, 0x0F#8] ∨ op ∈ [0x06#8, 0x07#8, 0x08#8, 0x16#8, 0x18#8] ∨ op = 0x17#8 ∨
    op ∈ [0x10#8, 0x11#8] ∨ op = 0x14#8 ∨ op = 0x12#8 ∨ op ∈ [0x03#8, 0x04#8] ∨
    op ∈ [0x09#8, 0x0C#8, 0x0D#8, 0x19#8, 0x20#8] := by
  revert op
  decide

/-- Settles O12, format by format. -/
theorem exactlyTheFieldBitsMatter : Obligations.ExactlyTheFieldBitsMatter := by
  intro op
  cases hop : recognizedOpcode op with
  | false => exact decodesExactlyFieldBits_unrecognized hop
  | true =>
    obtain h | h | h | h | h | rfl | h | rfl | rfl | h | h := recognizedOpcode_format hop
    · exact decodesExactlyFieldBits_F0 op h
    · exact decodesExactlyFieldBits_FR1 op h
    · exact decodesExactlyFieldBits_FRI op h
    · exact decodesExactlyFieldBits_FR2 op h
    · exact decodesExactlyFieldBits_FR3 op h
    · exact decodesExactlyFieldBits_FRN
    · exact decodesExactlyFieldBits_FPR op h
    · exact decodesExactlyFieldBits_FP
    · exact decodesExactlyFieldBits_FPW
    · exact decodesExactlyFieldBits_FM op h
    · exact decodesExactlyFieldBits_FT op h

end Sys2Proof
end

section
/-! Fetch, Step and Run (30_encoding.md R83 to R86): the fetch unit and the decoder agree on the bytes at pc, and Run goes
on exactly while the core is Running. -/

namespace Sys2Proof.Machine

variable {s t : State}

/-! ### Decoding is total (R86) -/

/-- The bytes at pc are the opcode and as many operand bytes as it fixes. -/
theorem State.bytesAtPc_eq_cons (s : State) :
    s.bytesAtPc = s.memRead s.pc ::
      (State.fetchOperands (operandCount (s.memRead s.pc)) s.fetch8.2).1 := by
  have hnext (k : Nat) : s.pc + BitVec.ofNat 16 (k + 1) = s.pc + 1#16 + BitVec.ofNat 16 k := by
    rw [BitVec.add_assoc, BitVec.ofNat_add, BitVec.add_comm (BitVec.ofNat 16 k)]
  rw [State.bytesAtPc, List.range_succ_eq_map, List.map_cons, List.map_map, State.fetchOperands_eq]
  exact congrArg₂ List.cons (congrArg s.memRead (BitVec.add_zero s.pc))
    (List.map_congr_left fun k _ => congrArg s.memRead (hnext k))

/-- The bytes at pc decode to what the fetch unit fetches, and no byte is left over (R71, R83). -/
theorem State.decode_bytesAtPc (s : State) : decode s.bytesAtPc = .ok (s.fetchInstr.1, []) := by
  have hlen : (State.fetchOperands (operandCount (s.memRead s.pc)) s.fetch8.2).1.length =
      operandCount (s.memRead s.pc) := by
    simp [State.fetchOperands_eq]
  rw [s.bytesAtPc_eq_cons, ← List.append_nil (State.fetchOperands _ _).1, decode_cons_append hlen]
  rfl

/-- Settles O10: the decoder's two branches, and the fetch unit's agreement with it. -/
theorem decodingIsTotal : Obligations.DecodingIsTotal := by
  refine ⟨fun b0 rest hcount => ⟨_, decode_cons hcount, ?_⟩, fun b0 rest hshort => if_pos hshort, rfl,
    fun s => ⟨_, s.decode_bytesAtPc⟩⟩
  have hwf := wellFormed_decodeOp b0 (rest.getD 0 0#8) (rest.getD 1 0#8) (rest.getD 2 0#8)
  refine ⟨hwf, opcodeOf_decodeOp _ _ _ _, ?_⟩
  rw [length_encode hwf, opcodeOf_decodeOp]

/-! ### Fetch and Step (R83, R84) -/

/-- Settles O8: a fetch reads at pc, raises pc, and writes no other field. -/
theorem fetch8ReadsAtPcAndIncrements : Obligations.Fetch8ReadsAtPcAndIncrements := by
  intro s
  exact ⟨rfl, BitVec.toNat_add s.pc 1#16, fun _ _ => rfl, ⟨fun _ _ => rfl, rfl⟩, fun _ _ => rfl,
    ⟨rfl, rfl, ⟨rfl, rfl⟩, rfl, rfl, rfl, rfl⟩⟩

/-- Settles O9: the instruction that the bytes at pc decode to is the fetched one. -/
theorem stepRunsTheDecodedInstruction : Obligations.StepRunsTheDecodedInstruction := by
  intro s i hs _ hdecode
  obtain rfl : s.fetchInstr.1 = i := by
    rw [s.decode_bytesAtPc] at hdecode
    simpa using hdecode
  exact ⟨_, step_running hs, s.fetchInstr_fetched⟩

/-! ### A placed table word (log entry 2) -/

/-- A table word has as many bytes as the longest instruction, so the decoder reads one from it. -/
theorem decodeTableWord_eq (nbits w : Nat) :
    decodeTableWord nbits w = some (decodeOp ((tableBytes nbits w).getD 0 0#8) ((tableBytes nbits w).getD 1 0#8)
      ((tableBytes nbits w).getD 2 0#8) ((tableBytes nbits w).getD 3 0#8)) := by
  rw [decodeTableWord, tableBytes, decode_cons (operandCount_le _)]
  rfl

@[simp] theorem State.withFetchWord_pc (s : State) (nbits w : Nat) : (s.withFetchWord nbits w).pc = s.pc := rfl

/-- The four bytes of a placed table word lie at pc to pc + 3, modulo 2^16. -/
theorem State.memRead_withFetchWord (s : State) (nbits w : Nat) (k : Word) :
    (s.withFetchWord nbits w).memRead (s.pc + k) = (tableBytes nbits w).getD k.toNat (s.memRead (s.pc + k)) := by
  have hk : s.pc + k - s.pc = k := by rw [BitVec.add_comm, BitVec.add_sub_cancel]
  have hlen : (tableBytes nbits w).length ≤ 65536 := by simp [tableBytes]
  rw [State.memRead, State.withFetchWord, State.placeAtPc_mem, Memory.read_load _ _ _ _ hlen, hk, State.memRead]

/-- The fetch unit fetches what the decoder reads from the placed word. -/
theorem State.decodeTableWord_eq_fetchInstr (s : State) (nbits w : Nat) :
    decodeTableWord nbits w = some (s.withFetchWord nbits w).fetchInstr.1 := by
  have hfirst := s.memRead_withFetchWord nbits w 0#16
  rw [BitVec.add_zero] at hfirst
  rw [decodeTableWord_eq, State.fetchInstr_fst, State.withFetchWord_pc, hfirst]
  simp only [State.memRead_withFetchWord]
  rfl

/-- Settles O14: the fetch reads the placed bytes back, and neither it nor the placing writes a register. -/
theorem placedWordRunsNext : Obligations.PlacedWordRunsNext := by
  intro s nbits w i hword
  obtain ⟨-, hregs, hf, hsp, -⟩ := (s.withFetchWord nbits w).fetchInstr_fetched
  rw [s.decodeTableWord_eq_fetchInstr, Option.some.injEq] at hword
  exact ⟨_, by rw [step_running rfl, hword], State.fetchInstr_fetched _, hregs, hf, hsp⟩

/-! ### The unrecognized opcodes (R81; 40_machine_control.md R102) -/

theorem keepsFlags_of_f_eq (h : t.f = s.f) (gs : List Flag) : KeepsFlags gs s t := by
  simp [KeepsFlags, State.flag, h]

/-- Settles O17: the decoder's last row, and the report and halt that it leads to. -/
theorem unrecognizedOpcodeReportsAndHalts : Obligations.UnrecognizedOpcodeReportsAndHalts := by
  refine ⟨fun op b1 b2 b3 => ?_, fun op => operandCount_unrecognized, fun op s => ?_, fun s hs hop => ?_⟩
  · rw [decodeOp_eq_unrecognized_iff, recognizedOpcode_eq_false_iff]
  · exact ⟨s.unknownOpcode op, rfl, rfl, rfl, rfl, keepsRegs_of_regs_eq rfl [], keepsFlags_of_f_eq rfl [],
      keepsMem_of_mem_eq rfl [], rfl, rfl, rfl, rfl, rfl, rfl⟩
  · have hinstr : s.fetchInstr.1 = .unrecognized (s.memRead s.pc) := by
      rw [State.fetchInstr_fst, decodeOp_unrecognized hop]
    obtain ⟨hpc, hregs, hf, hsp, -, hmem, ⟨hout, hdiag⟩, -⟩ := s.fetchInstr_fetched
    rw [operandCount_unrecognized hop] at hpc
    exact ⟨s.fetchInstr.2.unknownOpcode (s.memRead s.pc), by rw [step_running hs, hinstr]; rfl, hpc, rfl,
      congrArg (· ++ _) hdiag, hout, keepsRegs_of_regs_eq hregs [], keepsFlags_of_f_eq hf [],
      keepsMem_of_mem_eq hmem [], hsp⟩

/-! ### Run (R85) -/

theorem runFor_halted (h : s.halted = true) (n : Nat) : runFor n s = .next s := by
  cases n with
  | zero => rfl
  | succ n => rw [runFor, if_pos h]

/-- A Running core's Run takes the Step first. -/
theorem runFor_succ (hs : s.halted = false) (hstep : step s = .next t) (n : Nat) :
    runFor (n + 1) s = runFor n t := by
  simp [runFor, hs, hstep]

/-- Settles O6, by induction on the bound: a Halted core stays, a Running one takes a Step, which always answers a next
state. -/
theorem runEndsOnlyWhenHalted : Obligations.RunEndsOnlyWhenHalted := by
  intro n
  induction n with
  | zero =>
    refine fun s => ⟨s, rfl, fun hs k => runFor_halted hs _, fun hs => ?_⟩
    obtain ⟨t, _, hstep, -⟩ := step_effect hs
    rw [runFor_succ hs hstep, hstep]
    rfl
  | succ n ih =>
    intro s
    cases hs : s.halted with
    | true => exact ⟨s, runFor_halted hs _, fun _ k => runFor_halted hs _, by simp [hs]⟩
    | false =>
      obtain ⟨u, _, hstep, -⟩ := step_effect hs
      obtain ⟨t, hrun, hfinal, hgoes⟩ := ih u
      refine ⟨t, (runFor_succ hs hstep n).trans hrun, fun ht k => ?_, fun ht => ?_⟩
      · rw [Nat.succ_add, runFor_succ hs hstep, hfinal ht]
      · rw [runFor_succ hs hstep, hgoes ht]

end Sys2Proof.Machine
end

section
/-! Machine control (40_machine_control.md R100, R101): what a Step on an opcode without operand bytes fetches, and the
settlement of NOP and HLT. -/

namespace Sys2Proof.Machine

variable {op : Byte} {i : Instr} {s : State}

/-- A Step on an opcode without operand bytes runs its instruction one byte further on, in a state that the fetch left as
it was but for the scratch (30_encoding.md R83). -/
theorem step_of_no_operands (hcount : operandCount op = 0) (hdecode : ∀ b1 b2 b3, decodeOp op b1 b2 b3 = i)
    (hs : s.halted = false) (hop : s.memRead s.pc = op) :
    ∃ u, step s = exec i u ∧ u.pc.toNat = (s.pc.toNat + 1) % 65536 ∧ u.halted = false ∧
      KeepsRegs [] s u ∧ KeepsFlags [] s u ∧ KeepsMem [] s u ∧ u.sp = s.sp ∧ KeepsPorts s u := by
  obtain ⟨hpc, hregs, hf, hsp, hhalted, hmem, hports, -⟩ := s.fetchInstr_fetched
  rw [hop, hcount] at hpc
  have hinstr : s.fetchInstr.1 = i := by rw [State.fetchInstr_fst, hop, hdecode]
  exact ⟨_, by rw [step_running hs, hinstr], hpc, hhalted.trans hs, keepsRegs_of_regs_eq hregs [],
    keepsFlags_of_f_eq hf [], keepsMem_of_mem_eq hmem [], hsp, hports⟩

theorem exec_nop (s : State) : exec .nop s = .next s := rfl

theorem exec_hlt (s : State) : exec .hlt s = .next s.halt := rfl

theorem decodeOp_nop (b1 b2 b3 : Byte) : decodeOp 0x00#8 b1 b2 b3 = .nop := rfl

theorem decodeOp_hlt (b1 b2 b3 : Byte) : decodeOp 0x01#8 b1 b2 b3 = .hlt := rfl

/-- Settles O15: NOP answers its state unchanged, so the Step is the fetch of its one byte. -/
theorem nopOnlyMovesPc : Obligations.NopOnlyMovesPc := by
  refine ⟨⟨rfl, decodeOp_nop⟩, fun s => ⟨s, exec_nop s, ?_⟩, fun s hs hop => ?_⟩
  · exact ⟨fun _ _ => rfl, keepsFlags_of_f_eq rfl [], fun _ _ => rfl, rfl, rfl, rfl, ⟨rfl, rfl⟩, rfl, rfl, rfl, rfl⟩
  · obtain ⟨u, hstep, hframe⟩ := step_of_no_operands rfl decodeOp_nop hs hop
    exact ⟨u, hstep.trans (exec_nop u), hframe⟩

/-- Settles O16: HLT writes `halted` alone, and the Step does so after the fetch of its one byte. -/
theorem hltHalts : Obligations.HltHalts := by
  refine ⟨⟨rfl, decodeOp_hlt⟩, fun s => ⟨s.halt, exec_hlt s, s.halt_halted, step_halted s.halt_halted, ?_⟩,
    fun s hs hop => ?_⟩
  · exact ⟨keepsRegs_of_regs_eq s.halt_regs [], keepsFlags_of_f_eq s.halt_f [], keepsMem_of_mem_eq s.halt_mem [],
      s.halt_pc, s.halt_sp, ⟨s.halt_out, s.halt_diag⟩, s.halt_mdrh, s.halt_mdrl, s.halt_mar, s.halt_scratchTick⟩
  · obtain ⟨u, hstep, hpc, -, hframe⟩ := step_of_no_operands rfl decodeOp_hlt hs hop
    exact ⟨u.halt, hstep.trans (exec_hlt u), hpc, u.halt_halted, hframe⟩

end Sys2Proof.Machine
end

section
/-! The operand fields of an instruction in numbers (30_encoding.md R72 to R77). -/

namespace Sys2Proof

open Machine

theorem Reg.index_ofBits (v : BitVec 2) : (Reg.ofBits v).index = v.toNat := by
  revert v
  decide

/-- A register field holds its register's number (R73). -/
theorem fieldIs_regField (b : Byte) (lo : Nat) : FieldIs (regField b lo) b lo := by
  rw [FieldIs, regField, Reg.index_ofBits, BitVec.extractLsb'_toNat, Nat.shiftRight_eq_div_pow]

theorem Pair.index_ofBit (x : Bool) : (Pair.ofBit x).index = x.toNat := by
  cases x <;> rfl

/-- The pair field holds its pair's number (R74). -/
theorem pairFieldIs_pairField (b : Byte) : PairFieldIs (pairField b) b := by
  rw [PairFieldIs, pairField, Pair.index_ofBit, BitVec.getLsbD, Nat.toNat_testBit, Nat.pow_zero, Nat.div_one]

/-- A field that goes on in the next byte has that byte as its low part (R77, R78). -/
theorem toNat_append_byte {n : Nat} (x : BitVec n) (b : Byte) : (x ++ b).toNat = x.toNat * 256 + b.toNat := by
  rw [BitVec.toNat_append, ← Nat.shiftLeft_add_eq_or_of_lt b.isLt, Nat.shiftLeft_eq]

/-- The offset field holds B1[5:0] and B2 (R77). -/
theorem offsetIs_offsetField (b1 b2 : Byte) : OffsetIs (offsetField b1 b2) b1 b2 := by
  rw [OffsetIs, offsetField, toNat_append_byte, BitVec.extractLsb'_toNat, Nat.shiftRight_zero]

end Sys2Proof
end

section
/-! Data transfer (41_data_transfer.md R110 to R117): an instruction of this family is one register write or one memory
write, and each of the two has one lemma that says what it changes and what it keeps. -/

namespace Sys2Proof.Machine

/-! ### The meanings -/

theorem exec_ldi (d : Reg) (imm8 : Byte) (s : State) : exec (.ldi d imm8) s = .next (s.setReg d imm8) := rfl

theorem exec_mov (d src : Reg) (s : State) : exec (.mov d src) s = .next (s.setReg d (s.getReg src)) := rfl

theorem exec_ld (d : Reg) (o : BitVec 14) (s : State) :
    exec (.ld d o) s = .next (s.setReg d (s.memRead (directAddr o))) := rfl

theorem exec_ldir (d a : Reg) (s : State) :
    exec (.ldir d a) s = .next (s.setReg d (s.memRead (s.regIndirectAddr a))) := rfl

theorem exec_ldirp (d : Reg) (p : Pair) (s : State) :
    exec (.ldirp d p) s = .next (s.setReg d (s.memRead (s.pairIndirectAddr p))) := rfl

theorem exec_st (src : Reg) (o : BitVec 14) (s : State) :
    exec (.st src o) s = .next (s.memWrite (directAddr o) (s.getReg src)) := rfl

theorem exec_stir (src a : Reg) (s : State) :
    exec (.stir src a) s = .next (s.memWrite (s.regIndirectAddr a) (s.getReg src)) := rfl

theorem exec_stirp (src : Reg) (p : Pair) (s : State) :
    exec (.stirp src p) s = .next (s.memWrite (s.pairIndirectAddr p) (s.getReg src)) := rfl

/-! ### The addresses as words (20_memory.md R60) -/

theorem directAddr_eq_ofNat (o : BitVec 14) : directAddr o = BitVec.ofNat 16 (0x8000 + o.toNat) := by
  rw [← toNat_directAddr, BitVec.ofNat_toNat, BitVec.setWidth_eq]

theorem State.regIndirectAddr_eq_ofNat (s : State) (a : Reg) :
    s.regIndirectAddr a = BitVec.ofNat 16 (0x8000 + (s.getReg a).toNat) := by
  rw [← State.toNat_regIndirectAddr, BitVec.ofNat_toNat, BitVec.setWidth_eq]

theorem State.pairIndirectAddr_eq_ofNat (s : State) (p : Pair) :
    s.pairIndirectAddr p = BitVec.ofNat 16 (0x8000 + (s.getPair p).toNat) :=
  BitVec.eq_of_toNat_eq (s.toNat_pairIndirectAddr p)

/-! ### One register written -/

/-- What each register reads as after a register write (10_state.md R21). -/
theorem State.getReg_setReg (s : State) (d r : Reg) (v : Byte) :
    (s.setReg d v).getReg r = if r = d then v else s.getReg r :=
  RegFile.get_set s.regs d r v

theorem State.keepsRegs_setReg (s : State) (d : Reg) (v : Byte) : KeepsRegs [d] s (s.setReg d v) := by
  intro r hr
  rw [State.getReg_setReg, if_neg (by simpa using hr)]

theorem State.keepsRest_setReg (s : State) (d : Reg) (v : Byte) : KeepsRest s (s.setReg d v) :=
  ⟨s.setReg_sp d v, s.setReg_halted d v, ⟨s.setReg_out d v, s.setReg_diag d v⟩, s.setReg_mdrh d v, s.setReg_mdrl d v,
    s.setReg_mar d v, s.setReg_scratchTick d v⟩

/-- A register write changes the register and nothing else. -/
theorem State.setReg_changes_only (s : State) (d : Reg) (v : Byte) :
    (s.setReg d v).getReg d = v ∧ KeepsRegs [d] s (s.setReg d v) ∧ KeepsFlags [] s (s.setReg d v) ∧
      KeepsMem [] s (s.setReg d v) ∧ (s.setReg d v).pc = s.pc ∧ KeepsRest s (s.setReg d v) :=
  ⟨by rw [State.getReg_setReg, if_pos rfl], s.keepsRegs_setReg d v, keepsFlags_of_f_eq (s.setReg_f d v) [],
    keepsMem_of_mem_eq (s.setReg_mem d v) [], s.setReg_pc d v, s.keepsRest_setReg d v⟩

/-- Settles O24: LDI is the write of its immediate. -/
theorem ldiLoadsTheImmediate : Obligations.LdiLoadsTheImmediate :=
  ⟨⟨rfl, fun b1 _ _ => ⟨_, rfl, fieldIs_regField b1 0⟩⟩,
    fun d imm8 s => ⟨_, exec_ldi d imm8 s, s.setReg_changes_only d imm8⟩⟩

/-- Settles O25: MOV is the write of the old source register. -/
theorem movCopiesTheRegister : Obligations.MovCopiesTheRegister :=
  ⟨⟨rfl, fun b1 _ _ => ⟨_, _, rfl, fieldIs_regField b1 2, fieldIs_regField b1 0⟩⟩,
    fun d src s => ⟨_, exec_mov d src s, s.setReg_changes_only d (s.getReg src)⟩⟩

/-- Settles O26: a load is the write of the byte at its address, which the state before it forms. -/
theorem loadsReadTheAddressedByte : Obligations.LoadsReadTheAddressedByte := by
  refine ⟨⟨rfl, rfl, rfl, fun b1 b2 _ => ⟨?ldFields, ?ldirFields, ?ldirpFields⟩⟩, fun d o s => ?ld, fun d a s => ?ldir,
    fun d p s => ?ldirp⟩
  case ldFields => exact ⟨_, _, rfl, fieldIs_regField b1 6, offsetIs_offsetField b1 b2⟩
  case ldirFields => exact ⟨_, _, rfl, fieldIs_regField b1 2, fieldIs_regField b1 0⟩
  case ldirpFields => exact ⟨_, _, rfl, fieldIs_regField b1 4, pairFieldIs_pairField b1⟩
  case ld =>
    rw [← directAddr_eq_ofNat]
    exact ⟨_, exec_ld d o s, s.setReg_changes_only d _⟩
  case ldir =>
    rw [← State.regIndirectAddr_eq_ofNat]
    exact ⟨_, exec_ldir d a s, s.setReg_changes_only d _⟩
  case ldirp =>
    rw [← State.pairIndirectAddr_eq_ofNat]
    exact ⟨_, exec_ldirp d p s, s.setReg_changes_only d _⟩

/-! ### One byte of memory written -/

/-- What each address reads as after a memory write (20_memory.md R52). -/
theorem State.memRead_memWrite (s : State) (a b : Addr) (v : Byte) :
    (s.memWrite a v).memRead b = if b = a then v else s.memRead b :=
  Memory.read_write s.mem a b v

theorem State.keepsMem_memWrite (s : State) (a : Addr) (v : Byte) : KeepsMem [a] s (s.memWrite a v) := by
  intro b hb
  rw [State.memRead_memWrite, if_neg (by simpa using hb)]

theorem State.keepsRest_memWrite (s : State) (a : Addr) (v : Byte) : KeepsRest s (s.memWrite a v) :=
  ⟨s.memWrite_sp a v, s.memWrite_halted a v, ⟨s.memWrite_out a v, s.memWrite_diag a v⟩, s.memWrite_mdrh a v,
    s.memWrite_mdrl a v, s.memWrite_mar a v, s.memWrite_scratchTick a v⟩

/-- A memory write at the address numbered `n` changes the byte there and nothing else. -/
theorem State.memWrite_changes_only (s : State) {addr : Addr} {n : Nat} (haddr : addr.toNat = n) (v : Byte) :
    (∀ a, a = addr → a.toNat = n ∧ (s.memWrite addr v).memRead a = v ∧ KeepsMem [a] s (s.memWrite addr v)) ∧
      KeepsRegs [] s (s.memWrite addr v) ∧ KeepsFlags [] s (s.memWrite addr v) ∧ (s.memWrite addr v).pc = s.pc ∧
      KeepsRest s (s.memWrite addr v) := by
  refine ⟨?_, keepsRegs_of_regs_eq (s.memWrite_regs addr v) [], keepsFlags_of_f_eq (s.memWrite_f addr v) [],
    s.memWrite_pc addr v, s.keepsRest_memWrite addr v⟩
  rintro a rfl
  exact ⟨haddr, by rw [State.memRead_memWrite, if_pos rfl], s.keepsMem_memWrite a v⟩

/-- Settles O27: a store is the write of its register to the byte at its address. -/
theorem storesWriteOnlyTheAddressedByte : Obligations.StoresWriteOnlyTheAddressedByte := by
  refine ⟨⟨rfl, rfl, rfl, fun b1 b2 _ => ⟨?stFields, ?stirFields, ?stirpFields⟩⟩, fun src o s => ?st,
    fun src a s => ?stir, fun src p s => ?stirp⟩
  case stFields => exact ⟨_, _, rfl, fieldIs_regField b1 6, offsetIs_offsetField b1 b2⟩
  case stirFields => exact ⟨_, _, rfl, fieldIs_regField b1 2, fieldIs_regField b1 0⟩
  case stirpFields => exact ⟨_, _, rfl, fieldIs_regField b1 4, pairFieldIs_pairField b1⟩
  case st => exact ⟨_, exec_st src o s, s.memWrite_changes_only (toNat_directAddr o) _⟩
  case stir => exact ⟨_, exec_stir src a s, s.memWrite_changes_only (s.toNat_regIndirectAddr a) _⟩
  case stirp => exact ⟨_, exec_stirp src p s, s.memWrite_changes_only (s.toNat_pairIndirectAddr p) _⟩

end Sys2Proof.Machine
end

section
/-! The ALU (42_alu.md): the sums, the compare and the logical results in numbers (R130 to R135), what each shared ALU
operation changes and keeps, and the instructions R136 to R144 read off them. -/

namespace Sys2Proof.Machine

/-! ### The meanings -/

theorem exec_add (d a b : Reg) (s : State) :
    exec (.add d a b) s = .next (s.putSum8 d (add8 (s.getReg a) (s.getReg b) false)) := rfl

theorem exec_adc (d a b : Reg) (s : State) :
    exec (.adc d a b) s = .next (s.putSum8 d (add8 (s.getReg a) (s.getReg b) (s.flag .carry))) := rfl

theorem exec_addi (d : Reg) (imm8 : Byte) (s : State) :
    exec (.addi d imm8) s = .next (s.putSum8 d (add8 (s.getReg d) imm8 false)) := rfl

theorem exec_addiw (p : Pair) (imm16 : Word) (s : State) :
    exec (.addiw p imm16) s = .next (s.putSum16 p (add16 (s.getPair p) imm16)) := rfl

theorem exec_and (d a b : Reg) (s : State) :
    exec (.and d a b) s = .next (s.putLogic d (s.getReg a &&& s.getReg b)) := rfl

theorem exec_or (d a b : Reg) (s : State) :
    exec (.or d a b) s = .next (s.putLogic d (s.getReg a ||| s.getReg b)) := rfl

theorem exec_xor (d a b : Reg) (s : State) :
    exec (.xor d a b) s = .next (s.putLogic d (s.getReg a ^^^ s.getReg b)) := rfl

theorem exec_not (d src : Reg) (s : State) :
    exec (.not d src) s = .next (s.putLogic d (notShift (s.getReg src))) := rfl

theorem exec_cpi (r : Reg) (imm8 : Byte) (s : State) :
    exec (.cpi r imm8) s = .next (s.setLogicFlags (sub8 (s.getReg r) imm8)) := rfl

theorem exec_blt (tgt : BitVec 15) (s : State) : exec (.blt tgt) s = .next (s.branchIf (s.flag .negative) tgt) := rfl

theorem exec_bgt (tgt : BitVec 15) (s : State) : exec (.bgt tgt) s = .next (s.branchIf (!s.flag .negative) tgt) := rfl

/-! ### The flag conditions in numbers (R131 to R134) -/

theorem getLsbD_seven_iff (r : Byte) : r.getLsbD 7 = true ↔ 128 ≤ r.toNat := by
  rw [← BitVec.msb_eq_getLsbD_last r, BitVec.msb_eq_decide, decide_eq_true_iff]

theorem getLsbD_fifteen_iff (r : Word) : r.getLsbD 15 = true ↔ 0x8000 ≤ r.toNat := by
  rw [← BitVec.msb_eq_getLsbD_last r, BitVec.msb_eq_decide, decide_eq_true_iff]

theorem beq_zero_iff {n : Nat} (r : BitVec n) : (r == 0#n) = true ↔ r.toNat = 0 := by
  rw [beq_iff_eq, BitVec.toNat_eq, BitVec.toNat_ofNat, Nat.zero_mod]

/-! ### The 8-bit sum (R131) -/

section Add8

variable (a b : Byte) (c : Bool)

theorem toNat_add8 : (add8 a b c).r.toNat = (a.toNat + b.toNat + c.toNat) % 256 :=
  BitVec.toNat_ofNat _ _

theorem carry_add8_iff : (add8 a b c).c = true ↔ 255 < a.toNat + b.toNat + c.toNat :=
  decide_eq_true_iff

theorem zero_add8_iff : (add8 a b c).z = true ↔ (add8 a b c).r.toNat = 0 :=
  beq_zero_iff _

theorem negative_add8_iff : (add8 a b c).n = true ↔ 128 ≤ (add8 a b c).r.toNat :=
  getLsbD_seven_iff _

theorem overflow_add8_iff : (add8 a b c).v = true ↔
    (128 ≤ a.toNat ↔ 128 ≤ b.toNat) ∧ ¬(128 ≤ (add8 a b c).r.toNat ↔ 128 ≤ a.toNat) := by
  rw [← getLsbD_seven_iff a, ← getLsbD_seven_iff b, ← getLsbD_seven_iff (add8 a b c).r, ← Bool.eq_iff_iff,
    ← Bool.eq_iff_iff]
  simp only [add8, Bool.and_eq_true, beq_iff_eq, bne_iff_ne, ne_eq]

/-- The two forms of the condition for V agree: both say that the signs of the operands agree and the result's differs. -/
theorem add8_comm : add8 a b c = add8 b a c := by
  have hv (x y r : Bool) : (x == y && r != x) = (y == x && r != y) := by cases x <;> cases y <;> rfl
  dsimp only [add8]
  rw [Nat.add_comm a.toNat, hv]

/-- With the carry the sum is that of the operand one higher, modulo 2^8, for every operand (90_conflicts.md C5). -/
theorem add8_true_r : (add8 a b true).r = (add8 a (b + 1#8) false).r := by
  rw [← BitVec.toNat_inj, toNat_add8, toNat_add8, BitVec.toNat_add]
  simp only [Bool.toNat_true, Bool.toNat_false, BitVec.toNat_ofNat]
  omega

theorem add8_true_z : (add8 a b true).z = (add8 a (b + 1#8) false).z :=
  congrArg (· == 0#8) (add8_true_r a b)

theorem add8_true_n : (add8 a b true).n = (add8 a (b + 1#8) false).n :=
  congrArg (·.getLsbD 7) (add8_true_r a b)

/-- C is that of the operand one higher as long as the operand itself does not wrap (90_conflicts.md C6). -/
theorem add8_true_c (hb : b.toNat ≤ 0xFE) : (add8 a b true).c = (add8 a (b + 1#8) false).c := by
  have hsucc : (b + 1#8).toNat = b.toNat + 1 := by bv_omega
  rw [Bool.eq_iff_iff, carry_add8_iff, carry_add8_iff, hsucc, Bool.toNat_true, Bool.toNat_false]
  omega

/-- The sum is the same, so V differs only where b and b + 1 differ in sign: at 0x7F, but not at 0xFF, where the result is
a itself and neither sum overflows (90_conflicts.md C5). -/
theorem overflow_add8_true_ne_iff : (add8 a b true).v ≠ (add8 a (b + 1#8) false).v ↔ b = 0x7F#8 := by
  have hsucc : (b + 1#8).toNat = (b.toNat + 1) % 256 := BitVec.toNat_add b 1#8
  have hr := toNat_add8 a b true
  rw [ne_eq, Bool.eq_iff_iff, overflow_add8_iff, overflow_add8_iff, ← add8_true_r, hsucc, ← BitVec.toNat_inj]
  simp only [Bool.toNat_true, BitVec.toNat_ofNat] at hr ⊢
  omega

theorem add8_overflow_cases (hv : (add8 a b c).v = true) :
    (128 ≤ a.toNat ∧ 128 ≤ b.toNat ∧ (add8 a b c).c = true ∧ (add8 a b c).n = false) ∨
      (a.toNat < 128 ∧ b.toNat < 128 ∧ (add8 a b c).c = false ∧ (add8 a b c).n = true) := by
  have hr := toNat_add8 a b c
  have hc : c.toNat ≤ 1 := Bool.toNat_le c
  rw [overflow_add8_iff] at hv
  simp only [← Bool.not_eq_true, carry_add8_iff, negative_add8_iff]
  omega

theorem add8_ff_true : (add8 a 0xFF#8 true).r = a ∧ (add8 a 0xFF#8 true).c = true := by
  rw [← BitVec.toNat_inj, toNat_add8, carry_add8_iff]
  simp only [Bool.toNat_true, BitVec.toNat_ofNat]
  omega

theorem add8_zero_false : (add8 a 0x00#8 false).r = a ∧ (add8 a 0x00#8 false).c = false := by
  rw [← BitVec.toNat_inj, toNat_add8, ← Bool.not_eq_true, carry_add8_iff]
  simp only [Bool.toNat_false, BitVec.toNat_ofNat]
  omega

end Add8

/-- Settles O35, law by law: N and Z follow from the equal results, V from the signs of b and b + 1. -/
theorem addLawsHold : Obligations.AddLawsHold :=
  ⟨add8_comm, fun a b hb => ⟨add8_true_r a b, add8_true_c a b hb, add8_true_z a b⟩,
    fun a => ⟨(add8_ff_true a).1, (add8_ff_true a).2, add8_zero_false a⟩,
    fun a b => ⟨add8_true_n a b, overflow_add8_true_ne_iff a b⟩, add8_overflow_cases⟩

/-! ### The compare, NOT's function and the 16-bit sum (R133, R134, R143) -/

theorem toNat_sub8 (a b : Byte) : (sub8 a b).toNat = (a.toNat + 256 - b.toNat) % 256 :=
  BitVec.toNat_ofNat _ _

theorem sub8_eq_zero_iff (a b : Byte) : (sub8 a b).toNat = 0 ↔ a = b := by
  rw [toNat_sub8, ← BitVec.toNat_inj]
  omega

theorem toNat_notShift (a : Byte) : (notShift a).toNat = 255 - a.toNat / 4 := by
  rw [notShift, BitVec.toNat_not, BitVec.toNat_ushiftRight, Nat.shiftRight_eq_div_pow]

theorem toNat_add16 (a b : Word) : (add16 a b).r.toNat = (a.toNat + b.toNat) % 65536 :=
  BitVec.toNat_ofNat _ _

/-! ### Flags written one after the other (10_state.md R34) -/

theorem KeepsFlags.trans {gs hs : List Flag} {s t u : State} (hst : KeepsFlags gs s t) (htu : KeepsFlags hs t u) :
    KeepsFlags (gs ++ hs) s u := by
  obtain ⟨hflags, hhigh⟩ := hst
  obtain ⟨hflags', hhigh'⟩ := htu
  refine ⟨fun g hg => ?_, hhigh'.trans hhigh⟩
  rw [List.mem_append, not_or] at hg
  exact (hflags' g hg.2).trans (hflags g hg.1)

theorem State.keepsFlags_setFlag (s : State) (g : Flag) (b : Bool) : KeepsFlags [g] s (s.setFlag g b) :=
  ⟨fun h hh => flagGet_flagSet_ne s.f b (by simpa using hh), flagSet_high s.f g b⟩

theorem State.keepsFlags_setZN (s : State) (z n : Bool) : KeepsFlags [.zero, .negative] s (s.setZN z n) :=
  (s.keepsFlags_setFlag .zero z).trans (State.keepsFlags_setFlag _ .negative n)

theorem State.keepsFlags_setCZN (s : State) (c z n : Bool) :
    KeepsFlags [.carry, .zero, .negative] s (s.setCZN c z n) :=
  (s.keepsFlags_setFlag .carry c).trans (State.keepsFlags_setZN _ z n)

theorem State.keepsFlags_setCZNV (s : State) (c z n v : Bool) :
    KeepsFlags [.carry, .zero, .negative, .overflow] s (s.setCZNV c z n v) :=
  (s.keepsFlags_setCZN c z n).trans (State.keepsFlags_setFlag _ .overflow v)

/-! ### Z and N after a write from an 8-bit result (R132) -/

theorem State.zNSpec_setLogicFlags (s : State) (r : Byte) : ZNSpec r (s.setLogicFlags r) := by
  rw [ZNSpec, State.flag_setLogicFlags, State.flag_setLogicFlags]
  exact ⟨beq_zero_iff r, getLsbD_seven_iff r⟩

/-- A flag write from a result changes Z and N and nothing else. -/
theorem State.setLogicFlags_changes_only (s : State) (r : Byte) :
    KeepsRegs [] s (s.setLogicFlags r) ∧ KeepsFlags [.zero, .negative] s (s.setLogicFlags r) ∧
      KeepsMem [] s (s.setLogicFlags r) ∧ (s.setLogicFlags r).pc = s.pc ∧ KeepsRest s (s.setLogicFlags r) :=
  ⟨keepsRegs_of_regs_eq (s.setLogicFlags_regs r) [], s.keepsFlags_setZN _ _,
    keepsMem_of_mem_eq (s.setLogicFlags_mem r) [], s.setLogicFlags_pc r, s.setLogicFlags_sp r, s.setLogicFlags_halted r,
    ⟨s.setLogicFlags_out r, s.setLogicFlags_diag r⟩, s.setLogicFlags_mdrh r, s.setLogicFlags_mdrl r,
    s.setLogicFlags_mar r, s.setLogicFlags_scratchTick r⟩

/-- Settles O34: CPI writes Z and N from the wrapped difference, which is 0 exactly for equal operands. -/
theorem cpiSetsOnlyZeroAndNegative : Obligations.CpiSetsOnlyZeroAndNegative := by
  refine ⟨⟨rfl, fun b1 _ _ => ⟨_, rfl, fieldIs_regField b1 0⟩⟩, fun r imm8 s => ⟨_, exec_cpi r imm8 s, ?_⟩⟩
  obtain ⟨hzero, hnegative⟩ := s.zNSpec_setLogicFlags (sub8 (s.getReg r) imm8)
  rw [sub8_eq_zero_iff] at hzero
  rw [toNat_sub8] at hnegative
  exact ⟨hzero, hnegative, s.setLogicFlags_changes_only _⟩

/-! ### A logical result in a register (R132) -/

theorem State.getReg_putLogic (s : State) (d : Reg) (r : Byte) : (s.putLogic d r).getReg d = r :=
  RegFile.get_set_same s.regs d r

theorem State.zNSpec_putLogic (s : State) (d : Reg) (r : Byte) : ZNSpec r (s.putLogic d r) :=
  (s.setReg d r).zNSpec_setLogicFlags r

/-- A logical result changes its register, Z and N, and nothing else: the flag write follows the register write. -/
theorem State.putLogic_changes_only (s : State) (d : Reg) (r : Byte) :
    KeepsRegs [d] s (s.putLogic d r) ∧ KeepsFlags [.zero, .negative] s (s.putLogic d r) ∧
      KeepsMem [] s (s.putLogic d r) ∧ (s.putLogic d r).pc = s.pc ∧ KeepsRest s (s.putLogic d r) :=
  ⟨s.keepsRegs_setReg d r, s.keepsFlags_setZN _ _, keepsMem_of_mem_eq (s.putLogic_mem d r) [], s.putLogic_pc d r,
    s.keepsRest_setReg d r⟩

/-- The flags of a logical result, and its frame. -/
theorem State.putLogic_spec (s : State) (d : Reg) (r : Byte) :
    ZNSpec ((s.putLogic d r).getReg d) (s.putLogic d r) ∧ KeepsRegs [d] s (s.putLogic d r) ∧
      KeepsFlags [.zero, .negative] s (s.putLogic d r) ∧ KeepsMem [] s (s.putLogic d r) ∧
      (s.putLogic d r).pc = s.pc ∧ KeepsRest s (s.putLogic d r) :=
  ⟨by rw [State.getReg_putLogic]; exact s.zNSpec_putLogic d r, s.putLogic_changes_only d r⟩

/-- Settles O32: each instruction puts its bitwise result into d. -/
theorem logicInstructionsWorkBitwise : Obligations.LogicInstructionsWorkBitwise := by
  refine ⟨⟨rfl, rfl, rfl, fun b1 _ _ => ⟨_, _, _, fieldIs_regField b1 4, fieldIs_regField b1 2, fieldIs_regField b1 0,
    rfl, rfl, rfl⟩⟩, fun d a b s => ⟨_, _, _, exec_and d a b s, exec_or d a b s, exec_xor d a b s, fun k _ => ?_, ?_⟩⟩
  · simp only [State.getReg_putLogic]
    exact ⟨BitVec.getLsbD_and, BitVec.getLsbD_or, BitVec.getLsbD_xor⟩
  · simp only [List.forall_mem_cons, List.not_mem_nil, false_imp_iff, implies_true, and_true, State.putLogic_spec]

/-- Settles O33: the complement of a value below 64 is at least 192, which fixes Z and N. -/
theorem notComplementsTheShiftedSource : Obligations.NotComplementsTheShiftedSource := by
  refine ⟨⟨rfl, fun b1 _ _ => ⟨_, _, rfl, fieldIs_regField b1 4, fieldIs_regField b1 0⟩⟩,
    fun d src s => ⟨_, exec_not d src s, ?_⟩⟩
  obtain ⟨hzero, hnegative⟩ := s.zNSpec_putLogic d (notShift (s.getReg src))
  have hvalue := toNat_notShift (s.getReg src)
  have hlarge : 192 ≤ (notShift (s.getReg src)).toNat := by have := (s.getReg src).isLt; omega
  refine ⟨by rw [State.getReg_putLogic, hvalue], ?_, hnegative.2 (by omega), s.putLogic_changes_only d _⟩
  rw [← Bool.not_eq_true, hzero]
  omega

/-! ### An 8-bit sum in a register (R131) -/

/-- The register holds the sum, and the four flags are the sum's. -/
theorem State.sum8Spec_putSum8 (s : State) (d : Reg) (a b : Byte) (c : Bool) :
    Sum8Spec a b c.toNat ((s.putSum8 d (add8 a b c)).getReg d) (s.putSum8 d (add8 a b c)) := by
  have hget : (s.putSum8 d (add8 a b c)).getReg d = (add8 a b c).r := RegFile.get_set_same s.regs d _
  simp only [Sum8Spec, ZNSpec, State.flag_putSum8, hget]
  exact ⟨toNat_add8 a b c, carry_add8_iff a b c, ⟨zero_add8_iff a b c, negative_add8_iff a b c⟩,
    overflow_add8_iff a b c⟩

/-- ADD, ADC and ADDI: the sum in its register with C, Z, N and V, and nothing else changed. -/
theorem State.putSum8_add8_spec (s : State) (d : Reg) (a b : Byte) (c : Bool) :
    Sum8Spec a b c.toNat ((s.putSum8 d (add8 a b c)).getReg d) (s.putSum8 d (add8 a b c)) ∧
      KeepsRegs [d] s (s.putSum8 d (add8 a b c)) ∧
      KeepsFlags [.carry, .zero, .negative, .overflow] s (s.putSum8 d (add8 a b c)) ∧
      KeepsMem [] s (s.putSum8 d (add8 a b c)) ∧ (s.putSum8 d (add8 a b c)).pc = s.pc ∧
      KeepsRest s (s.putSum8 d (add8 a b c)) :=
  ⟨s.sum8Spec_putSum8 d a b c, s.keepsRegs_setReg d _, s.keepsFlags_setCZNV _ _ _ _,
    keepsMem_of_mem_eq (s.putSum8_mem d _) [], s.putSum8_pc d _, s.keepsRest_setReg d (add8 a b c).r⟩

/-- Settles O28: ADD is the sum with carry-in 0. -/
theorem addWritesSumAndFourFlags : Obligations.AddWritesSumAndFourFlags :=
  ⟨⟨rfl, fun b1 _ _ => ⟨_, _, _, rfl, fieldIs_regField b1 4, fieldIs_regField b1 2, fieldIs_regField b1 0⟩⟩,
    fun d a b s => ⟨_, exec_add d a b s, s.putSum8_add8_spec d (s.getReg a) (s.getReg b) false⟩⟩

/-- Settles O29: ADC is the sum with the old C as carry-in. -/
theorem adcAddsTheOldCarry : Obligations.AdcAddsTheOldCarry := by
  refine ⟨⟨rfl, fun b1 _ _ => ⟨_, _, _, rfl, fieldIs_regField b1 4, fieldIs_regField b1 2, fieldIs_regField b1 0⟩⟩,
    fun d a b s => ⟨_, exec_adc d a b s, ?_⟩⟩
  rw [← Bool.cond_eq_ite]
  exact s.putSum8_add8_spec d (s.getReg a) (s.getReg b) (s.flag .carry)

/-- Settles O30: ADDI is the sum of the old destination and the immediate with carry-in 0. -/
theorem addiAddsTheImmediate : Obligations.AddiAddsTheImmediate :=
  ⟨⟨rfl, fun b1 _ _ => ⟨_, rfl, fieldIs_regField b1 0⟩⟩,
    fun d imm8 s => ⟨_, exec_addi d imm8 s, s.putSum8_add8_spec d (s.getReg d) imm8 false⟩⟩

/-! ### A 16-bit sum in a pair (R134) -/

theorem State.getPair_putSum16 (s : State) (p : Pair) (q : Sum16) : (s.putSum16 p q).getPair p = q.r :=
  s.getPair_setPair_same p q.r

theorem State.keepsRest_putSum16 (s : State) (p : Pair) (q : Sum16) : KeepsRest s (s.putSum16 p q) :=
  ⟨s.putSum16_sp p q, s.putSum16_halted p q, ⟨s.putSum16_out p q, s.putSum16_diag p q⟩, s.putSum16_mdrh p q,
    s.putSum16_mdrl p q, s.putSum16_mar p q, s.putSum16_scratchTick p q⟩

/-- Settles O31: the pair write keeps the other pair, the flag write keeps V, and the flags are those of the 16-bit sum. -/
theorem addiwAddsToThePair : Obligations.AddiwAddsToThePair := by
  refine ⟨⟨rfl, fun b1 b2 b3 => ⟨_, _, rfl, pairFieldIs_pairField b1, toNat_joinBytes b2 b3⟩⟩,
    fun p imm16 s => ⟨_, exec_addiw p imm16 s, ?_⟩⟩
  rw [State.getPair_putSum16, State.flag_putSum16, State.flag_putSum16, State.flag_putSum16]
  exact ⟨toNat_add16 _ _, decide_eq_true_iff, beq_zero_iff _, getLsbD_fifteen_iff _, s.keepsRegs_setPair p _,
    s.keepsFlags_setCZN _ _ _, keepsMem_of_mem_eq (s.putSum16_mem p _) [], s.putSum16_pc p _, s.keepsRest_putSum16 p _⟩

/-! ### CPI before BLT or BGT (R139, corner cases; 43_control_transfer.md R162, R163) -/

section CompareThenBranch

variable (a b : Byte)

/-- A byte's signed reading in terms of its unsigned one (R131). -/
theorem toInt_byte (x : Byte) : x.toInt = if x.toNat < 128 then (x.toNat : Int) else x.toNat - 256 := by
  rw [BitVec.toInt_eq_toNat_cond]
  split <;> split <;> omega

theorem negative_sub8_iff_lt (hband : a.toNat ≤ b.toNat + 127 ∧ b.toNat ≤ a.toNat + 128) :
    128 ≤ (sub8 a b).toNat ↔ a.toNat < b.toNat := by
  rw [toNat_sub8]
  omega

theorem negative_sub8_iff_not_lt (hband : ¬(a.toNat ≤ b.toNat + 127 ∧ b.toNat ≤ a.toNat + 128)) :
    128 ≤ (sub8 a b).toNat ↔ ¬a.toNat < b.toNat := by
  rw [toNat_sub8]
  omega

theorem negative_sub8_iff_slt (hband : -128 ≤ a.toInt - b.toInt ∧ a.toInt - b.toInt ≤ 127) :
    128 ≤ (sub8 a b).toNat ↔ a.toInt < b.toInt := by
  rw [toInt_byte, toInt_byte] at hband ⊢
  rw [toNat_sub8]
  omega

theorem negative_sub8_iff_not_slt (hband : ¬(-128 ≤ a.toInt - b.toInt ∧ a.toInt - b.toInt ≤ 127)) :
    128 ≤ (sub8 a b).toNat ↔ ¬a.toInt < b.toInt := by
  rw [toInt_byte, toInt_byte] at hband ⊢
  rw [toNat_sub8]
  omega

end CompareThenBranch

/-- Where BLT and BGT go when N says `less`: BLT to its target exactly then, BGT exactly otherwise. -/
theorem State.branchIf_negative_pc (t : State) (tgt : BitVec 15) {less : Prop} [Decidable less]
    (h : t.flag .negative = true ↔ less) :
    ((t.branchIf (t.flag .negative) tgt).pc = if less then targetAddr tgt else t.pc) ∧
      ((t.branchIf (!t.flag .negative) tgt).pc = if less then t.pc else targetAddr tgt) := by
  by_cases hless : less
  · simp [h.2 hless, hless]
  · simp [Bool.eq_false_iff.2 (mt h.1 hless), hless]

/-- The opposite case: N says that `less` fails. -/
theorem State.branchIf_negative_pc_not (t : State) (tgt : BitVec 15) {less : Prop} [Decidable less]
    (h : t.flag .negative = true ↔ ¬less) :
    ((t.branchIf (t.flag .negative) tgt).pc = if less then t.pc else targetAddr tgt) ∧
      ((t.branchIf (!t.flag .negative) tgt).pc = if less then targetAddr tgt else t.pc) := by
  simpa only [ite_not] using t.branchIf_negative_pc tgt h

/-- Settles O36: N is bit 7 of the wrapped difference, which is the true difference's sign within the band and its opposite
outside, and the branches go by N. -/
theorem compareThenBranchMeansLessThanInBand : Obligations.CompareThenBranchMeansLessThanInBand := by
  intro r imm8 tgt s
  have hnegative := (s.zNSpec_setLogicFlags (sub8 (s.getReg r) imm8)).2
  exact ⟨_, _, _, exec_cpi r imm8 s, exec_blt tgt _, exec_bgt tgt _,
    fun hband => State.branchIf_negative_pc _ tgt (hnegative.trans (negative_sub8_iff_lt _ _ hband)),
    fun hband => State.branchIf_negative_pc_not _ tgt (hnegative.trans (negative_sub8_iff_not_lt _ _ hband)),
    fun hband => State.branchIf_negative_pc _ tgt (hnegative.trans (negative_sub8_iff_slt _ _ hband)),
    fun hband => State.branchIf_negative_pc_not _ tgt (hnegative.trans (negative_sub8_iff_not_slt _ _ hband))⟩

end Sys2Proof.Machine
end

section
/-! Control transfer (43_control_transfer.md R160 to R165): JMP and the branches write pc alone, CALL pushes the pc it leaves,
and RET pops it. -/

namespace Sys2Proof.Machine

/-! ### The meanings -/

theorem exec_jmp (tgt : BitVec 15) (s : State) : exec (.jmp tgt) s = .next (s.setPc (targetAddr tgt)) := rfl

theorem exec_beq (tgt : BitVec 15) (s : State) : exec (.beq tgt) s = .next (s.branchIf (s.flag .zero) tgt) := rfl

theorem exec_call (tgt : BitVec 15) (s : State) :
    exec (.call tgt) s = .next ((s.push16 s.pc).setPc (targetAddr tgt)) := rfl

theorem exec_ret (s : State) : exec .ret s = .next (s.pop16.2.setPc s.pop16.1) := rfl

/-- The target field holds B1[6:0] and B2 (30_encoding.md R78). -/
theorem targetIs_targetField (b1 b2 : Byte) : TargetIs (targetField b1 b2) b1 b2 := by
  rw [TargetIs, targetField, toNat_append_byte, BitVec.extractLsb'_toNat, Nat.shiftRight_zero]

/-! ### pc alone written -/

theorem State.keepsRest_setPc (s : State) (w : Word) : KeepsRest s (s.setPc w) :=
  ⟨s.setPc_sp w, s.setPc_halted w, ⟨s.setPc_out w, s.setPc_diag w⟩, s.setPc_mdrh w, s.setPc_mdrl w, s.setPc_mar w,
    s.setPc_scratchTick w⟩

/-- A write of pc changes nothing else. -/
theorem State.setPc_keeps_others (s : State) (w : Word) :
    KeepsRegs [] s (s.setPc w) ∧ KeepsFlags [] s (s.setPc w) ∧ KeepsMem [] s (s.setPc w) ∧ KeepsRest s (s.setPc w) :=
  ⟨keepsRegs_of_regs_eq (s.setPc_regs w) [], keepsFlags_of_f_eq (s.setPc_f w) [],
    keepsMem_of_mem_eq (s.setPc_mem w) [], s.keepsRest_setPc w⟩

/-- Settles O37: JMP is the write of pc with its target. -/
theorem jmpLoadsTheTarget : Obligations.JmpLoadsTheTarget :=
  ⟨⟨rfl, fun b1 b2 _ => ⟨_, rfl, targetIs_targetField b1 b2⟩⟩,
    fun tgt s => ⟨_, exec_jmp tgt s, toNat_targetAddr tgt, s.setPc_keeps_others (targetAddr tgt)⟩⟩

/-! ### The branches -/

/-- A branch is a write of pc, taken or not. -/
theorem State.branchIf_keeps_others (s : State) (cond : Bool) (tgt : BitVec 15) :
    KeepsRegs [] s (s.branchIf cond tgt) ∧ KeepsFlags [] s (s.branchIf cond tgt) ∧
      KeepsMem [] s (s.branchIf cond tgt) ∧ KeepsRest s (s.branchIf cond tgt) :=
  s.setPc_keeps_others _

theorem State.toNat_branchIf_pc (s : State) (cond : Bool) (tgt : BitVec 15) :
    (s.branchIf cond tgt).pc.toNat = if cond = true then tgt.toNat else s.pc.toNat := by
  rw [State.branchIf_pc, apply_ite BitVec.toNat, toNat_targetAddr]

/-- A branch on a clear flag, BGT's: the flag decides the other way round. -/
theorem State.toNat_branchIf_not_pc (s : State) (cond : Bool) (tgt : BitVec 15) :
    (s.branchIf (!cond) tgt).pc.toNat = if cond = true then s.pc.toNat else tgt.toNat := by
  rw [State.toNat_branchIf_pc]
  cases cond <;> rfl

/-- Settles O38: each branch is `branchIf` on its flag. -/
theorem branchesTestTheirFlag : Obligations.BranchesTestTheirFlag := by
  refine ⟨⟨rfl, rfl, rfl, fun b1 b2 _ => ⟨_, targetIs_targetField b1 b2, rfl, rfl, rfl⟩⟩, fun tgt s =>
    ⟨_, _, _, exec_beq tgt s, exec_bgt tgt s, exec_blt tgt s, s.toNat_branchIf_pc _ tgt, s.toNat_branchIf_not_pc _ tgt,
      s.toNat_branchIf_pc _ tgt, ?frame⟩⟩
  case frame =>
    simp only [List.forall_mem_cons]
    exact ⟨s.branchIf_keeps_others _ tgt, s.branchIf_keeps_others _ tgt, s.branchIf_keeps_others _ tgt,
      List.forall_mem_nil _⟩

/-! ### CALL and RET -/

/-- Settles O39: CALL leaves the state of a 16-bit push of pc, with pc at the target. -/
theorem callPushesTheReturnAddress : Obligations.CallPushesTheReturnAddress := by
  refine ⟨⟨rfl, fun b1 b2 _ => ⟨_, rfl, targetIs_targetField b1 b2⟩⟩, fun tgt s =>
    ⟨_, exec_call tgt s, toNat_targetAddr tgt, s.push16_sp_toNat s.pc, ?lowByte, ?highByte, s.keepsMem_push16 s.pc,
      keepsRegs_of_regs_eq (s.push16_regs s.pc) [], keepsFlags_of_f_eq (s.push16_f s.pc) [], s.push16_halted s.pc,
      ⟨s.push16_out s.pc, s.push16_diag s.pc⟩, s.push16_mdrh s.pc, s.push16_mdrl s.pc, s.push16_mar s.pc,
      s.push16_scratchTick s.pc⟩⟩
  case lowByte =>
    rintro a rfl
    rw [State.memRead_setPc, State.memRead_push16_sp, toNat_loByte]
  case highByte =>
    rintro a rfl
    rw [State.memRead_setPc, State.memRead_push16_sp_sub_one, toNat_hiByte]

/-- A popped word is 256 times the byte above sp plus the byte above that (10_state.md R39). -/
theorem State.toNat_pop16 (s : State) :
    s.pop16.1.toNat = (s.memRead (s.sp + 1#16)).toNat * 256 + (s.memRead (s.sp + 2#16)).toNat := by
  rw [State.pop16_value, toNat_joinBytes, BitVec.add_assoc]
  rfl

/-- Settles O40: RET leaves the state of a 16-bit pop, with pc at the popped word. -/
theorem retPopsTheReturnAddress : Obligations.RetPopsTheReturnAddress :=
  ⟨⟨rfl, fun _ _ _ => rfl⟩, fun s => ⟨_, exec_ret s, s.toNat_pop16, s.pop16_sp_toNat,
    keepsMem_of_mem_eq s.pop16_mem [], keepsRegs_of_regs_eq s.pop16_regs [], keepsFlags_of_f_eq s.pop16_f [],
    s.pop16_halted, ⟨s.pop16_out, s.pop16_diag⟩, s.pop16_mdrh, s.pop16_mdrl, s.pop16_mar, s.pop16_scratchTick⟩⟩

/-- A pop depends on sp and on the two bytes above it only. -/
theorem State.pop16_congr {s t : State} (hsp : s.sp = t.sp) (hhi : s.memRead (t.sp + 1#16) = t.memRead (t.sp + 1#16))
    (hlo : s.memRead (t.sp + 2#16) = t.memRead (t.sp + 2#16)) : s.pop16.1 = t.pop16.1 :=
  BitVec.eq_of_toNat_eq (by rw [State.toNat_pop16, State.toNat_pop16, hsp, hhi, hlo])

theorem State.pop16_sp_push16 (s : State) (w : Word) : (s.push16 w).pop16.2.sp = s.sp := by
  rw [State.pop16_sp, State.push16_sp, BitVec.sub_add_cancel, BitVec.sub_add_cancel]

/-- Settles O41: RET pops what it would pop right after the CALL, and a pop undoes the push. -/
theorem callThenRetReturns : Obligations.CallThenRetReturns := by
  intro tgt s c r hcall hsp hhi hlo
  obtain rfl : (s.push16 s.pc).setPc (targetAddr tgt) = c := Host.Outcome.next.inj ((exec_call tgt s).symm.trans hcall)
  refine ⟨_, exec_ret r, ?pc, ?sp⟩
  case pc => exact (State.pop16_congr hsp hhi hlo).trans (s.pop16_push16 s.pc)
  case sp => rw [State.setPc_sp, State.pop16_sp, hsp]; exact s.pop16_sp_push16 s.pc

end Sys2Proof.Machine
end

section
/-! Display output (44_output.md R180 to R182): each instruction sends one event, and the sink shows that event after all that
it has shown. -/

namespace Sys2Proof.Machine

/-! ### The meanings -/

theorem exec_out (r : Reg) (s : State) : exec (.out r) s = .next (s.emit (.dec8 (s.getReg r))) := rfl

theorem exec_outp (p : Pair) (s : State) : exec (.outp p) s = .next (s.emit (.dec16 (s.getPair p))) := rfl

theorem exec_outa (r : Reg) (s : State) : exec (.outa r) s = .next (s.emit (.char (s.getReg r))) := rfl

/-! ### One event sent -/

/-- The text of an event follows the text already shown (00_scope.md R11). -/
@[simp] theorem State.shownText_emit (s : State) (e : OutEvent) :
    (s.emit e).shownText = s.shownText ++ renderEvent e := by
  rw [State.shownText, State.emit_out, List.flatMap_append, List.flatMap_singleton, ← State.shownText]

/-- A decimal event is shown as its digits and one line break. -/
theorem State.shownText_emit_line (s : State) {e : OutEvent} {digits : List Char}
    (h : renderEvent e = digits ++ ['\n']) : (s.emit e).shownText = s.shownText ++ digits ++ ['\n'] := by
  rw [State.shownText_emit, h, List.append_assoc]

/-- Sending an event changes the output port alone. -/
theorem State.emit_keeps_others (s : State) (e : OutEvent) :
    KeepsRegs [] s (s.emit e) ∧ KeepsFlags [] s (s.emit e) ∧ KeepsMem [] s (s.emit e) ∧ (s.emit e).pc = s.pc ∧
      (s.emit e).sp = s.sp ∧ (s.emit e).halted = s.halted ∧ (s.emit e).diag = s.diag ∧ KeepsScratch s (s.emit e) :=
  ⟨keepsRegs_of_regs_eq (s.emit_regs e) [], keepsFlags_of_f_eq (s.emit_f e) [], keepsMem_of_mem_eq (s.emit_mem e) [],
    s.emit_pc e, s.emit_sp e, s.emit_halted e, s.emit_diag e, s.emit_mdrh e, s.emit_mdrl e, s.emit_mar e,
    s.emit_scratchTick e⟩

/-- Settles O42: each output instruction is one `emit`, whose event's text ends the shown text. -/
theorem outputInstructionsSendOneEvent : Obligations.OutputInstructionsSendOneEvent := by
  refine ⟨⟨rfl, rfl, rfl, fun b1 _ _ =>
      ⟨⟨_, fieldIs_regField b1 0, rfl, rfl⟩, _, pairFieldIs_pairField b1, rfl⟩⟩, fun r p s =>
    ⟨_, _, _, exec_out r s, exec_outp p s, exec_outa r s, s.emit_out _, s.emit_out _, s.emit_out _,
      s.shownText_emit_line rfl, s.shownText_emit_line rfl, ⟨_, s.shownText_emit _⟩, ?frame⟩⟩
  case frame =>
    simp only [List.forall_mem_cons]
    exact ⟨s.emit_keeps_others _, s.emit_keeps_others _, s.emit_keeps_others _, List.forall_mem_nil _⟩

end Sys2Proof.Machine
end

section
/-! The reset input (70_reset_and_hazards.md R230, R232): its state is the reset state over the old memory and ports, and the
next Step runs what that memory holds from 0x0000. -/

namespace Sys2Proof.Machine

theorem drive_reset (s : State) : drive .reset s = .next s.applyReset := rfl

@[simp] theorem State.memRead_applyReset (s : State) (a : Addr) : s.applyReset.memRead a = s.memRead a := rfl

/-- R0 to R3 are read as in the reset state (10_state.md R45). -/
@[simp] theorem State.getReg_applyReset (s : State) (r : Reg) : s.applyReset.getReg r = 0x00#8 :=
  resetStateHoldsTheTableValues.1 r

/-- The first fetch after reset starts at 0x0000 and reads the memory from before the reset (D17). -/
theorem State.fetchInstr_fst_applyReset (s : State) :
    s.applyReset.fetchInstr.1 =
      decodeOp (s.memRead 0x0000#16) (s.memRead 0x0001#16) (s.memRead 0x0002#16) (s.memRead 0x0003#16) := by
  simp only [State.fetchInstr_fst, State.applyReset_pc, State.memRead_applyReset, BitVec.zero_add]

/-- Settles O3: the core is Running after reset, so the Step is the effect of the instruction fetched from 0x0000. -/
theorem firstStepAfterResetRunsAddressZero : Obligations.FirstStepAfterResetRunsAddressZero := fun s =>
  ⟨s.applyReset, s.applyReset.fetchInstr.2, drive_reset s,
    by rw [step_running s.applyReset_halted, State.fetchInstr_fst_applyReset],
    s.applyReset.fetchInstr_fetched, s.applyReset_pc⟩

/-- Settles O1, field by field of the state that reset answers. -/
theorem resetSetsEveryCoreElement : Obligations.ResetSetsEveryCoreElement := fun s =>
  ⟨s.applyReset, drive_reset s, s.getReg_applyReset, s.applyReset_f, s.applyReset_pc, s.applyReset_sp,
    s.applyReset_halted, s.applyReset_mdrh, s.applyReset_mdrl, s.applyReset_mar,
    keepsMem_of_mem_eq s.applyReset_mem [], s.applyReset_out, s.applyReset_diag⟩

end Sys2Proof.Machine
end

section
/-! Words of the spec (30_encoding.md R72, R80): a word with its ignored bits 0 is the encoding of its instruction, and any
other word decodes as the one that agrees with it on the field bits. -/

namespace Sys2Proof

open Machine

/-- O11 for the bytes of one instruction and nothing after them. -/
theorem decode_eq_of_encode_eq {i : Instr} {bytes : List Byte} (hwf : WellFormed i) (h : encode i = bytes) :
    decode bytes = .ok (i, []) := by
  rw [← h, ← List.append_nil (encode i)]
  exact decodeOfEncodeIsTheInstruction i [] hwf

/-- Ignored bits of the only operand byte do not change what is decoded (R79, D11): O12 for a two-byte instruction. -/
theorem decode_pair_congr {op b c : Byte} (hcount : operandCount op = 1) (h : b &&& usedB1 op = c &&& usedB1 op) :
    decode [op, b] = decode [op, c] := by
  have hop : decodeOp op b 0#8 0#8 = decodeOp op c 0#8 0#8 :=
    (exactlyTheFieldBitsMatter op b 0#8 0#8 c 0#8 0#8).mpr ⟨h, fun _ => rfl, fun _ => rfl⟩
  have hdecode (x : Byte) : decode [op, x] = .ok (decodeOp op x 0#8 0#8, []) :=
    decode_cons_append (ops := [x]) hcount.symm []
  rw [hdecode, hdecode, hop]

/-- Settles O13: each word is the encoding of its instruction, but for OUTP's, whose ignored bits are set; it decodes as the
encoding `14 00` does. -/
theorem wordsOfTheSpecDecode : Obligations.WordsOfTheSpecDecode := by
  have houtp : decode [0x14#8, 0xFE#8] = decode [0x14#8, 0x00#8] := decode_pair_congr rfl (by decide)
  exact ⟨decode_eq_of_encode_eq rfl rfl, decode_eq_of_encode_eq rfl rfl, decode_eq_of_encode_eq rfl rfl,
    decode_eq_of_encode_eq rfl rfl, houtp.trans (decode_eq_of_encode_eq rfl rfl), decode_eq_of_encode_eq rfl rfl⟩

end Sys2Proof
end
